-- ==== Sys2Proof/Word.lean ====
section
/-! DEFINITION. The two widths of the machine (00_scope.md R9) and their plainest conversions (R11). -/

namespace Sys2Proof

/-- An 8-bit value: a register, a memory byte, a port number, an immediate `n`, a displacement `d` (R9). -/
abbrev Byte := BitVec 8

/-- A 16-bit value: PC, SP, IX, IY, a register pair, a memory address (R9). -/
abbrev Word := BitVec 16

/-- `pair(a, b)`: the 16-bit value `a * 256 + b` (R11). -/
abbrev pair (high low : Byte) : Word := high ++ low

/-- `hi(v)` is `v[15:8]` (R11). -/
abbrev hi (v : Word) : Byte := v.extractLsb' 8 8

/-- `lo(v)` is `v[7:0]` (R11). -/
abbrev lo (v : Word) : Byte := v.extractLsb' 0 8

/-- The 16-bit value of `sext_8(b)`, the byte read as -128..127 and reduced modulo 65536 (R12). -/
abbrev sext (b : Byte) : Word := b.signExtend 16

end Sys2Proof
end

