-- ==== Sys2Proof/Config.lean ====
section
/-! DEFINITION. What is fixed before the first step (00_scope.md R10, 10_state.md R42) and the values the spec leaves
to the peripherals behind the port handlers. -/

namespace Sys2Proof

/-- The parameters of R10 that the spec calls configuration, as plain data. No step changes them and no reset does
(R42, D23). A port table maps a port to the number of the function registered for it; what that function does is
outside the core (R42) and free (`Config.inHandler`, `Config.outHandler`). -/
structure Config where
  /-- The primary opcode bytes that are NOT in `IMPLEMENTED_PRIMARY` (R10, R114); the default is none (D2). -/
  unimplemented : List Byte
  /-- The input producers: port and function (R42, R71). -/
  inPorts : List (Byte × Nat)
  /-- The output consumers: port and function (R42, R72). -/
  outPorts : List (Byte × Nat)
  deriving DecidableEq, Repr

/-- The configuration at creation: every primary byte implemented (R10, D2), no handler registered (R472). -/
def Config.initial : Config := { unimplemented := [], inPorts := [], outPorts := [] }

/-- What one call of a port handler gives back (R485): its result, masked to 8 bits (used by an input producer only),
whether it called `trigger_interrupt()` (R437), and the peripheral state it leaves, as a number (log entry 2). -/
structure HandlerReply where
  value : Byte
  irq : Bool
  peripheral : Nat
  deriving DecidableEq, Repr, Inhabited

/-- FREE VALUE (log entry 2): the input producer registered as function `fn`, as R485 has it: from the port and the
peripheral state. -/
opaque Config.inHandler : (fn : Nat) → (port : Byte) → (peripheral : Nat) → HandlerReply

/-- FREE VALUE (log entry 2): the output consumer registered as function `fn`: from the port, the value written and the
peripheral state. -/
opaque Config.outHandler : (fn : Nat) → (port value : Byte) → (peripheral : Nat) → HandlerReply

end Sys2Proof
end

