-- ==== Sys2Proof/Syntax.lean ====
section
/-! DEFINITION. The instructions: one constructor for each of the 186 rows of spec/opcode_table.json, in its order, and the
operand fields of 30_encoding.md R100 to R107. Operands that the encoding cannot hold (register code 110, a bit number
above 7, ...) are kept out by the types. -/

namespace Sys2Proof

/-- The 8-bit register field `r` without its memory code 110 (R100). -/
inductive Reg8 where
  | b | c | d | e | h | l | a
  deriving DecidableEq, Repr

/-- The 16-bit pair field `rp` (R101). -/
inductive Rp where
  | bc | de | hl | sp
  deriving DecidableEq, Repr

/-- The 16-bit pair field `rp2` of PUSH and POP (R102). -/
inductive Rp2 where
  | bc | de | hl | af
  deriving DecidableEq, Repr

/-- The condition field `cc` (R103). -/
inductive Cond where
  | nz | z | nc | c | po | pe | p | m
  deriving DecidableEq, Repr

/-- The 2-bit condition field of `JR cc` (R103, R285). -/
inductive CondJr where
  | nz | z | nc | c
  deriving DecidableEq, Repr

/-- The index register an index prefix selects: 0xDD selects IX, 0xFD selects IY (R95). -/
inductive Idx where
  | ix | iy
  deriving DecidableEq, Repr

/-- The half of an index register: `XYH` or `XYL` (R13, R24). -/
inductive Half where
  | high | low
  deriving DecidableEq, Repr

/-- The pair field of `ADD XY,rp`: code 10 is the index register itself (R230). -/
inductive RpX where
  | bc | de | xy | sp
  deriving DecidableEq, Repr

/-- The register field under an index prefix in an instruction with no memory operand: codes 100 and 101 are the
halves of the index register (R96 item 2). -/
inductive RegX where
  | b | c | d | e | xyh | xyl | a
  deriving DecidableEq, Repr

/-- Every row of spec/opcode_table.json. `nn`, `n`, `d`, `e` are as R107; `x` says which index register. -/
inductive Instr where
  -- main page
  | nop
  | exAfAf
  | djnz (e : Byte)
  | jr (e : Byte)
  | jrCc (cc : CondJr) (e : Byte)
  | ldRpNn (rp : Rp) (nn : Word)
  | addHlRp (rp : Rp)
  | ldIndBcA
  | ldIndDeA
  | ldMemHl (nn : Word)
  | ldMemA (nn : Word)
  | ldAIndBc
  | ldAIndDe
  | ldHlMem (nn : Word)
  | ldAMem (nn : Word)
  | incRp (rp : Rp)
  | decRp (rp : Rp)
  | incR (r : Reg8)
  | incIndHl
  | decR (r : Reg8)
  | decIndHl
  | ldRN (r : Reg8) (n : Byte)
  | ldIndHlN (n : Byte)
  | rlca
  | rrca
  | rla
  | rra
  | daa
  | cpl
  | scf
  | ccf
  | ldRR (r r' : Reg8)
  | ldRIndHl (r : Reg8)
  | ldIndHlR (r : Reg8)
  | halt
  | addAR (r : Reg8)
  | addAIndHl
  | addAN (n : Byte)
  | adcAR (r : Reg8)
  | adcAIndHl
  | adcAN (n : Byte)
  | subR (r : Reg8)
  | subIndHl
  | subN (n : Byte)
  | sbcAR (r : Reg8)
  | sbcAIndHl
  | sbcAN (n : Byte)
  | andR (r : Reg8)
  | andIndHl
  | andN (n : Byte)
  | xorR (r : Reg8)
  | xorIndHl
  | xorN (n : Byte)
  | orR (r : Reg8)
  | orIndHl
  | orN (n : Byte)
  | cpR (r : Reg8)
  | cpIndHl
  | cpN (n : Byte)
  | retCc (cc : Cond)
  | popRp2 (rp2 : Rp2)
  | ret
  | exx
  | jpHl
  | ldSpHl
  | jpCcNn (cc : Cond) (nn : Word)
  | jpNn (nn : Word)
  | outNA (n : Byte)
  | inAN (n : Byte)
  | exIndSpHl
  | exDeHl
  | di
  | ei
  | callCcNn (cc : Cond) (nn : Word)
  | pushRp2 (rp2 : Rp2)
  | callNn (nn : Word)
  | rst (t : Fin 8)
  -- the four bytes that are part of the instruction that follows (R93, R95)
  | prefixCB
  | prefixDD
  | prefixED
  | prefixFD
  -- main page after DD/FD
  | ldXyNn (x : Idx) (nn : Word)
  | ldMemXy (x : Idx) (nn : Word)
  | ldXyMem (x : Idx) (nn : Word)
  | incXy (x : Idx)
  | decXy (x : Idx)
  | addXyRp (x : Idx) (rp : RpX)
  | pushXy (x : Idx)
  | popXy (x : Idx)
  | exIndSpXy (x : Idx)
  | jpXy (x : Idx)
  | ldSpXy (x : Idx)
  | incIdx (x : Idx) (d : Byte)
  | decIdx (x : Idx) (d : Byte)
  | ldIdxN (x : Idx) (d n : Byte)
  | ldRIdx (r : Reg8) (x : Idx) (d : Byte)
  | ldIdxR (x : Idx) (d : Byte) (r : Reg8)
  | addAIdx (x : Idx) (d : Byte)
  | addAHalf (x : Idx) (hf : Half)
  | adcAIdx (x : Idx) (d : Byte)
  | adcAHalf (x : Idx) (hf : Half)
  | subIdx (x : Idx) (d : Byte)
  | subHalf (x : Idx) (hf : Half)
  | sbcAIdx (x : Idx) (d : Byte)
  | sbcAHalf (x : Idx) (hf : Half)
  | andIdx (x : Idx) (d : Byte)
  | andHalf (x : Idx) (hf : Half)
  | xorIdx (x : Idx) (d : Byte)
  | xorHalf (x : Idx) (hf : Half)
  | orIdx (x : Idx) (d : Byte)
  | orHalf (x : Idx) (hf : Half)
  | cpIdx (x : Idx) (d : Byte)
  | cpHalf (x : Idx) (hf : Half)
  | incHalf (x : Idx) (hf : Half)
  | decHalf (x : Idx) (hf : Half)
  | ldHalfN (x : Idx) (hf : Half) (n : Byte)
  | ldRRHalf (x : Idx) (r r' : RegX)
  /-- A DD/FD before an opcode it does not affect (R117): `i` is the unprefixed instruction. -/
  | pOp (x : Idx) (i : Instr)
  -- CB page, and CB page after DD/FD
  | rlcR (r : Reg8)
  | rlcIndHl
  | rlcIdx (x : Idx) (d : Byte)
  | rrcR (r : Reg8)
  | rrcIndHl
  | rrcIdx (x : Idx) (d : Byte)
  | rlR (r : Reg8)
  | rlIndHl
  | rlIdx (x : Idx) (d : Byte)
  | rrR (r : Reg8)
  | rrIndHl
  | rrIdx (x : Idx) (d : Byte)
  | slaR (r : Reg8)
  | slaIndHl
  | slaIdx (x : Idx) (d : Byte)
  | sraR (r : Reg8)
  | sraIndHl
  | sraIdx (x : Idx) (d : Byte)
  /-- CB 30 to CB 37 (R258): `z` is the low three bits of the sub-opcode. -/
  | unknownCb (z : Fin 8)
  | srlR (r : Reg8)
  | srlIndHl
  | srlIdx (x : Idx) (d : Byte)
  | bitR (b : Fin 8) (r : Reg8)
  | bitIndHl (b : Fin 8)
  | bitIdx (b : Fin 8) (x : Idx) (d : Byte)
  | resR (b : Fin 8) (r : Reg8)
  | resIndHl (b : Fin 8)
  | resIdx (b : Fin 8) (x : Idx) (d : Byte)
  | setR (b : Fin 8) (r : Reg8)
  | setIndHl (b : Fin 8)
  | setIdx (b : Fin 8) (x : Idx) (d : Byte)
  /-- `P CB d s` with `s[2:0]` other than 110 (R98). -/
  | unknownIndexCb (x : Idx) (d s : Byte)
  /-- `P CB d 36` (R98, R258). -/
  | unknownIndexCb36 (x : Idx) (d : Byte)
  -- ED page
  | inRC (r : Reg8)
  | outCR (r : Reg8)
  | sbcHlRp (rp : Rp)
  | adcHlRp (rp : Rp)
  | ldMemRp (nn : Word) (rp : Rp)
  | ldRpMem (rp : Rp) (nn : Word)
  | neg
  | retn
  | reti
  | im0
  | im1
  | im2
  | ldIA
  | ldRA
  | ldAI
  | ldAR
  | rrd
  | rld
  | ldi
  | cpi
  | ini
  | outi
  | ldd
  | cpd
  | ind
  | outd
  | ldir
  | cpir
  | inir
  | otir
  | lddr
  | cpdr
  | indr
  | otdr
  /-- An ED sub-opcode that R112's table does not define (R113). -/
  | unknownEd (s : Byte)
  deriving DecidableEq, Repr

end Sys2Proof
end

