-- ==== Sys2Proof/WellFormed.lean ====
section
/-! DEFINITION. Which terms of `Instr` are complete instructions of this machine: the side conditions of
30_encoding.md that the operand types do not already hold. -/

namespace Sys2Proof

/-- The 58 sub-opcodes of R112's table. -/
def definedEd : List Nat :=
  [0x40, 0x48, 0x50, 0x58, 0x60, 0x68, 0x78, 0x41, 0x49, 0x51, 0x59, 0x61, 0x69, 0x79] ++
  [0x42, 0x52, 0x62, 0x72, 0x4A, 0x5A, 0x6A, 0x7A, 0x43, 0x53, 0x63, 0x73, 0x4B, 0x5B, 0x6B, 0x7B] ++
  [0x44, 0x45, 0x4D, 0x46, 0x56, 0x5E, 0x47, 0x4F, 0x57, 0x5F, 0x67, 0x6F] ++
  [0xA0, 0xA1, 0xA2, 0xA3, 0xA8, 0xA9, 0xAA, 0xAB, 0xB0, 0xB1, 0xB2, 0xB3, 0xB8, 0xB9, 0xBA, 0xBB]

/-- The register is H or L, which an index prefix replaces (R96 item 2). -/
def Reg8.isHL : Reg8 → Bool
  | .h | .l => true
  | .b | .c | .d | .e | .a => false

/-- The pair is HL, which an index prefix replaces (R96 item 3). -/
def Rp.isHL : Rp → Bool
  | .hl => true
  | .bc | .de | .sp => false

def Rp2.isHL : Rp2 → Bool
  | .hl => true
  | .bc | .de | .af => false

/-- The register operand is a half of the index register. -/
def RegX.isHalf : RegX → Bool
  | .xyh | .xyl => true
  | .b | .c | .d | .e | .a => false

/-- R117: the main-page instructions that name no H, L, (HL) or HL operand, and with them the three exceptions of
R96 item 4 (`EX DE,HL`, `EXX`, `HALT`). Everything that is no main-page row is not one of them. -/
def Instr.prefixWithoutEffect : Instr → Bool
  | .nop | .exAfAf | .djnz _ | .jr _ | .jrCc _ _ => true
  | .ldRpNn rp _ | .incRp rp | .decRp rp => !rp.isHL
  | .ldIndBcA | .ldIndDeA | .ldMemA _ | .ldAIndBc | .ldAIndDe | .ldAMem _ => true
  | .incR r | .decR r | .ldRN r _ => !r.isHL
  | .rlca | .rrca | .rla | .rra | .daa | .cpl | .scf | .ccf | .halt => true
  | .ldRR r r' => !r.isHL && !r'.isHL
  | .addAR r | .adcAR r | .subR r | .sbcAR r | .andR r | .xorR r | .orR r | .cpR r => !r.isHL
  | .addAN _ | .adcAN _ | .subN _ | .sbcAN _ | .andN _ | .xorN _ | .orN _ | .cpN _ => true
  | .popRp2 rp2 | .pushRp2 rp2 => !rp2.isHL
  | .retCc _ | .ret | .exx | .exDeHl | .jpCcNn _ _ | .jpNn _ | .outNA _ | .inAN _ | .di | .ei => true
  | .callCcNn _ _ | .callNn _ | .rst _ => true
  | _ => false

/-- The four bytes that are no instruction by themselves but part of the instruction that follows (R93, R95). -/
def Instr.isPrefixByte : Instr → Bool
  | .prefixCB | .prefixDD | .prefixED | .prefixFD => true
  | _ => false

/-- A complete instruction of the machine, checked: a prefix byte alone is none (R93); `P op` only before an opcode
that the prefix does not affect (R117); the index-half form of `LD r,r'` names at least one half (R96 item 2); the
unknown rows hold unknown sub-opcodes only (R98, R112, R113). -/
def Instr.wellFormed : Instr → Bool
  | .prefixCB | .prefixDD | .prefixED | .prefixFD => false
  | .pOp _ i => i.prefixWithoutEffect
  | .ldRRHalf _ r r' => r.isHalf || r'.isHalf
  | .unknownIndexCb _ _ s => s.toNat % 8 != 6
  | .unknownEd s => !definedEd.contains s.toNat
  | _ => true

abbrev Instr.WellFormed (i : Instr) : Prop := i.wellFormed = true

end Sys2Proof
end

