-- ==== Sys2Proof/Decode.lean ====
section
/-! DEFINITION. From bytes to instructions (30_encoding.md R90 to R118) and back.

The table of the spec has one opcode map per page, and a prefix byte only selects the map for what follows (R93). So
`decodeUnit` reads ONE row of the table, at the page and under the index prefix already selected; `decode` reads units
until one is a whole instruction, as the loop of R93 does. Every function is total: `none` only where bytes run out. -/

namespace Sys2Proof

/-- The transient `prefix` tag (10_state.md R39): None, IX or IY. -/
inductive PrefixTag where
  | none | ix | iy
  deriving DecidableEq, Repr

/-- The page (00_scope.md R17) that the bytes read so far select. -/
inductive Page where
  | main | cb | ed
  deriving DecidableEq, Repr

/-! ## Fields (R100 to R108) -/

/-- `x = op[7:6]` (R108). -/
def fieldX (op : Byte) : Nat := op.toNat / 64
/-- `y = op[5:3]` (R108). -/
def fieldY (op : Byte) : Nat := op.toNat / 8 % 8
/-- `z = op[2:0]` (R108). -/
def fieldZ (op : Byte) : Nat := op.toNat % 8
/-- `p = y[2:1]` (R108). -/
def fieldP (op : Byte) : Nat := op.toNat / 16 % 4
/-- `q = y[0]` (R108). -/
def fieldQ (op : Byte) : Nat := op.toNat / 8 % 2

/-- A 3-bit number as `Fin 8` (bit numbers and RST targets, R106). -/
def fin8 (n : Nat) : Fin 8 := ⟨n % 8, Nat.mod_lt n (by decide)⟩

/-- R100; `none` is code 110, the memory operand. -/
def regOf : Nat → Option Reg8
  | 0 => some .b | 1 => some .c | 2 => some .d | 3 => some .e | 4 => some .h | 5 => some .l | 7 => some .a
  | _ => none

/-- R101. -/
def rpOf : Nat → Rp
  | 0 => .bc | 1 => .de | 2 => .hl | _ => .sp

/-- R102. -/
def rp2Of : Nat → Rp2
  | 0 => .bc | 1 => .de | 2 => .hl | _ => .af

/-- R101 under an index prefix: code 10 is `XY`. -/
def rpXOf : Nat → RpX
  | 0 => .bc | 1 => .de | 2 => .xy | _ => .sp

/-- R103. -/
def condOf : Nat → Cond
  | 0 => .nz | 1 => .z | 2 => .nc | 3 => .c | 4 => .po | 5 => .pe | 6 => .p | _ => .m

/-- R103, the 2-bit field of `JR cc`. -/
def condJrOf : Nat → CondJr
  | 0 => .nz | 1 => .z | 2 => .nc | _ => .c

/-- R96 item 2: codes 100 and 101 are the index halves; `none` is code 110. -/
def regXOf : Nat → Option RegX
  | 0 => some .b | 1 => some .c | 2 => some .d | 3 => some .e | 4 => some .xyh | 5 => some .xyl | 7 => some .a
  | _ => none

/-- R96 item 2: code 100 is XYH, code 101 is XYL; `none` for the other codes. -/
def halfOf : Nat → Option Half
  | 4 => some .high | 5 => some .low
  | _ => none

/-- One decoded unit: the instruction and how many bytes it took. -/
abbrev Decoded := Option (Instr × Nat)

/-- `op n` (M2n, M2e). -/
def withByte (rest : List Byte) (f : Byte → Instr) : Decoded :=
  match rest with
  | n :: _ => some (f n, 2)
  | [] => none

/-- `op lo hi` (M3): the low byte first (R92). -/
def withWord (rest : List Byte) (f : Word → Instr) : Decoded :=
  match rest with
  | l :: h :: _ => some (f (pair h l), 3)
  | _ => none

/-- `op d n` (X3dn): the displacement before the immediate (R97). -/
def withDispByte (rest : List Byte) (f : Byte → Byte → Instr) : Decoded :=
  match rest with
  | d :: n :: _ => some (f d n, 3)
  | _ => none

/-! ## Main page (R108 to R110) -/

/-- The accumulator operation `alu[y]` on a register (R104, R109). -/
def aluR (y : Nat) (r : Reg8) : Instr :=
  match y with
  | 0 => .addAR r | 1 => .adcAR r | 2 => .subR r | 3 => .sbcAR r
  | 4 => .andR r | 5 => .xorR r | 6 => .orR r | _ => .cpR r

/-- `alu[y]` on `(HL)`. -/
def aluIndHl (y : Nat) : Instr :=
  match y with
  | 0 => .addAIndHl | 1 => .adcAIndHl | 2 => .subIndHl | 3 => .sbcAIndHl
  | 4 => .andIndHl | 5 => .xorIndHl | 6 => .orIndHl | _ => .cpIndHl

/-- `alu[y]` on an immediate (R110, z = 6). -/
def aluN (y : Nat) (n : Byte) : Instr :=
  match y with
  | 0 => .addAN n | 1 => .adcAN n | 2 => .subN n | 3 => .sbcAN n
  | 4 => .andN n | 5 => .xorN n | 6 => .orN n | _ => .cpN n

/-- `alu[y]` on `(XY+d)`. -/
def aluIdx (y : Nat) (x : Idx) (d : Byte) : Instr :=
  match y with
  | 0 => .addAIdx x d | 1 => .adcAIdx x d | 2 => .subIdx x d | 3 => .sbcAIdx x d
  | 4 => .andIdx x d | 5 => .xorIdx x d | 6 => .orIdx x d | _ => .cpIdx x d

/-- `alu[y]` on XYH or XYL. -/
def aluHalf (y : Nat) (x : Idx) (hf : Half) : Instr :=
  match y with
  | 0 => .addAHalf x hf | 1 => .adcAHalf x hf | 2 => .subHalf x hf | 3 => .sbcAHalf x hf
  | 4 => .andHalf x hf | 5 => .xorHalf x hf | 6 => .orHalf x hf | _ => .cpHalf x hf

/-- Main page, x = 0 (R108). -/
def decodeMain0 (op : Byte) (rest : List Byte) : Decoded :=
  match fieldZ op with
  | 0 =>
    match fieldY op with
    | 0 => some (.nop, 1)
    | 1 => some (.exAfAf, 1)
    | 2 => withByte rest .djnz
    | 3 => withByte rest .jr
    | y => withByte rest (.jrCc (condJrOf (y - 4)))
  | 1 =>
    match fieldQ op with
    | 0 => withWord rest (.ldRpNn (rpOf (fieldP op)))
    | _ => some (.addHlRp (rpOf (fieldP op)), 1)
  | 2 =>
    match fieldY op with
    | 0 => some (.ldIndBcA, 1)
    | 1 => some (.ldAIndBc, 1)
    | 2 => some (.ldIndDeA, 1)
    | 3 => some (.ldAIndDe, 1)
    | 4 => withWord rest .ldMemHl
    | 5 => withWord rest .ldHlMem
    | 6 => withWord rest .ldMemA
    | _ => withWord rest .ldAMem
  | 3 =>
    match fieldQ op with
    | 0 => some (.incRp (rpOf (fieldP op)), 1)
    | _ => some (.decRp (rpOf (fieldP op)), 1)
  | 4 =>
    match regOf (fieldY op) with
    | some r => some (.incR r, 1)
    | none => some (.incIndHl, 1)
  | 5 =>
    match regOf (fieldY op) with
    | some r => some (.decR r, 1)
    | none => some (.decIndHl, 1)
  | 6 =>
    match regOf (fieldY op) with
    | some r => withByte rest (.ldRN r)
    | none => withByte rest .ldIndHlN
  | _ =>
    match fieldY op with
    | 0 => some (.rlca, 1)
    | 1 => some (.rrca, 1)
    | 2 => some (.rla, 1)
    | 3 => some (.rra, 1)
    | 4 => some (.daa, 1)
    | 5 => some (.cpl, 1)
    | 6 => some (.scf, 1)
    | _ => some (.ccf, 1)

/-- Main page, x = 1: `LD r[y],r[z]` and HALT (R109). -/
def decodeMain1 (op : Byte) : Decoded :=
  match regOf (fieldY op), regOf (fieldZ op) with
  | some r, some r' => some (.ldRR r r', 1)
  | some r, none => some (.ldRIndHl r, 1)
  | none, some r' => some (.ldIndHlR r', 1)
  | none, none => some (.halt, 1)

/-- Main page, x = 2: `alu[y] A,r[z]` (R109). -/
def decodeMain2 (op : Byte) : Decoded :=
  match regOf (fieldZ op) with
  | some r => some (aluR (fieldY op) r, 1)
  | none => some (aluIndHl (fieldY op), 1)

/-- Main page, x = 3 (R110). -/
def decodeMain3 (op : Byte) (rest : List Byte) : Decoded :=
  match fieldZ op with
  | 0 => some (.retCc (condOf (fieldY op)), 1)
  | 1 =>
    match fieldY op with
    | 1 => some (.ret, 1)
    | 3 => some (.exx, 1)
    | 5 => some (.jpHl, 1)
    | 7 => some (.ldSpHl, 1)
    | _ => some (.popRp2 (rp2Of (fieldP op)), 1)
  | 2 => withWord rest (.jpCcNn (condOf (fieldY op)))
  | 3 =>
    match fieldY op with
    | 0 => withWord rest .jpNn
    | 1 => some (.prefixCB, 1)
    | 2 => withByte rest .outNA
    | 3 => withByte rest .inAN
    | 4 => some (.exIndSpHl, 1)
    | 5 => some (.exDeHl, 1)
    | 6 => some (.di, 1)
    | _ => some (.ei, 1)
  | 4 => withWord rest (.callCcNn (condOf (fieldY op)))
  | 5 =>
    match fieldY op with
    | 1 => withWord rest .callNn
    | 3 => some (.prefixDD, 1)
    | 5 => some (.prefixED, 1)
    | 7 => some (.prefixFD, 1)
    | _ => some (.pushRp2 (rp2Of (fieldP op)), 1)
  | 6 => withByte rest (aluN (fieldY op))
  | _ => some (.rst (fin8 (fieldY op)), 1)

/-- The main page without an index prefix (R108 to R110). -/
def decodeMain (op : Byte) (rest : List Byte) : Decoded :=
  match fieldX op with
  | 0 => decodeMain0 op rest
  | 1 => decodeMain1 op
  | 2 => decodeMain2 op
  | _ => decodeMain3 op rest

/-! ## Main page after DD/FD (R96, R97, R117) -/

/-- The main-page row with `P` before it (R117); a prefix byte stays a prefix byte (R95, R99). -/
def decodeUnaffected (x : Idx) (op : Byte) (rest : List Byte) : Decoded :=
  (decodeMain op rest).map fun (i, n) => if i.isPrefixByte then (i, n) else (.pOp x i, n)

/-- x = 0 under an index prefix. -/
def decodeIndex0 (x : Idx) (op : Byte) (rest : List Byte) : Decoded :=
  match fieldZ op, fieldY op with
  | 1, 4 => withWord rest (.ldXyNn x)
  | 1, y => if y % 2 = 1 then some (.addXyRp x (rpXOf (fieldP op)), 1) else decodeUnaffected x op rest
  | 2, 4 => withWord rest (.ldMemXy x)
  | 2, 5 => withWord rest (.ldXyMem x)
  | 3, 4 => some (.incXy x, 1)
  | 3, 5 => some (.decXy x, 1)
  | 4, 4 => some (.incHalf x .high, 1)
  | 4, 5 => some (.incHalf x .low, 1)
  | 4, 6 => withByte rest (.incIdx x)
  | 5, 4 => some (.decHalf x .high, 1)
  | 5, 5 => some (.decHalf x .low, 1)
  | 5, 6 => withByte rest (.decIdx x)
  | 6, 4 => withByte rest (.ldHalfN x .high)
  | 6, 5 => withByte rest (.ldHalfN x .low)
  | 6, 6 => withDispByte rest (.ldIdxN x)
  | _, _ => decodeUnaffected x op rest

/-- x = 1 under an index prefix: with a memory operand the other register is the plain one, without one H and L are
the halves (R96 items 1, 2). -/
def decodeIndex1 (x : Idx) (op : Byte) (rest : List Byte) : Decoded :=
  match regXOf (fieldY op), regXOf (fieldZ op) with
  | some r, some r' => if r.isHalf || r'.isHalf then some (.ldRRHalf x r r', 1) else decodeUnaffected x op rest
  | _, _ =>
    match regOf (fieldY op), regOf (fieldZ op) with
    | some r, none => withByte rest (.ldRIdx r x)
    | none, some r' => withByte rest fun d => .ldIdxR x d r'
    | _, _ => decodeUnaffected x op rest

/-- x = 2 under an index prefix. -/
def decodeIndex2 (x : Idx) (op : Byte) (rest : List Byte) : Decoded :=
  match halfOf (fieldZ op), fieldZ op with
  | some hf, _ => some (aluHalf (fieldY op) x hf, 1)
  | none, 6 => withByte rest (aluIdx (fieldY op) x)
  | none, _ => decodeUnaffected x op rest

/-- x = 3 under an index prefix (R96 item 3). -/
def decodeIndex3 (x : Idx) (op : Byte) (rest : List Byte) : Decoded :=
  match fieldZ op, fieldY op with
  | 1, 4 => some (.popXy x, 1)
  | 1, 5 => some (.jpXy x, 1)
  | 1, 7 => some (.ldSpXy x, 1)
  | 3, 4 => some (.exIndSpXy x, 1)
  | 5, 4 => some (.pushXy x, 1)
  | _, _ => decodeUnaffected x op rest

/-- The main page under the index prefix that selects `x`. -/
def decodeIndexMain (x : Idx) (op : Byte) (rest : List Byte) : Decoded :=
  match fieldX op with
  | 0 => decodeIndex0 x op rest
  | 1 => decodeIndex1 x op rest
  | 2 => decodeIndex2 x op rest
  | _ => decodeIndex3 x op rest

/-! ## CB page (R98, R111, R258) -/

/-- The rotate or shift `rot[y]` on a register (R105); y = 6 is unknown. -/
def rotR (y : Nat) (r : Reg8) (z : Nat) : Instr :=
  match y with
  | 0 => .rlcR r | 1 => .rrcR r | 2 => .rlR r | 3 => .rrR r
  | 4 => .slaR r | 5 => .sraR r | 6 => .unknownCb (fin8 z) | _ => .srlR r

/-- `rot[y]` on `(HL)`; y = 6 is CB 36, unknown. -/
def rotIndHl (y : Nat) : Instr :=
  match y with
  | 0 => .rlcIndHl | 1 => .rrcIndHl | 2 => .rlIndHl | 3 => .rrIndHl
  | 4 => .slaIndHl | 5 => .sraIndHl | 6 => .unknownCb 6 | _ => .srlIndHl

/-- `rot[y]` on `(XY+d)`; y = 6 is `P CB d 36`, unknown. -/
def rotIdx (y : Nat) (x : Idx) (d : Byte) : Instr :=
  match y with
  | 0 => .rlcIdx x d | 1 => .rrcIdx x d | 2 => .rlIdx x d | 3 => .rrIdx x d
  | 4 => .slaIdx x d | 5 => .sraIdx x d | 6 => .unknownIndexCb36 x d | _ => .srlIdx x d

/-- The CB page without an index prefix (R111). -/
def decodeCb (s : Byte) : Instr :=
  match regOf (fieldZ s), fieldX s with
  | some r, 0 => rotR (fieldY s) r (fieldZ s)
  | some r, 1 => .bitR (fin8 (fieldY s)) r
  | some r, 2 => .resR (fin8 (fieldY s)) r
  | some r, _ => .setR (fin8 (fieldY s)) r
  | none, 0 => rotIndHl (fieldY s)
  | none, 1 => .bitIndHl (fin8 (fieldY s))
  | none, 2 => .resIndHl (fin8 (fieldY s))
  | none, _ => .setIndHl (fin8 (fieldY s))

/-- The CB page under an index prefix: only `z = 6` is defined (R98). -/
def decodeIndexCb (x : Idx) (d s : Byte) : Instr :=
  match fieldZ s, fieldX s with
  | 6, 0 => rotIdx (fieldY s) x d
  | 6, 1 => .bitIdx (fin8 (fieldY s)) x d
  | 6, 2 => .resIdx (fin8 (fieldY s)) x d
  | 6, _ => .setIdx (fin8 (fieldY s)) x d
  | _, _ => .unknownIndexCb x d s

/-! ## ED page (R112) -/

/-- The block instructions, x = 2 (R112). -/
def decodeEdBlock (s : Byte) : Instr :=
  match fieldY s, fieldZ s with
  | 4, 0 => .ldi | 4, 1 => .cpi | 4, 2 => .ini | 4, 3 => .outi
  | 5, 0 => .ldd | 5, 1 => .cpd | 5, 2 => .ind | 5, 3 => .outd
  | 6, 0 => .ldir | 6, 1 => .cpir | 6, 2 => .inir | 6, 3 => .otir
  | 7, 0 => .lddr | 7, 1 => .cpdr | 7, 2 => .indr | 7, 3 => .otdr
  | _, _ => .unknownEd s

/-- The ED page, x = 1 (R112): the Zilog duplicates are unknown here (D1). -/
def decodeEd1 (s : Byte) (rest : List Byte) : Decoded :=
  match fieldZ s with
  | 0 =>
    match regOf (fieldY s) with
    | some r => some (.inRC r, 1)
    | none => some (.unknownEd s, 1)
  | 1 =>
    match regOf (fieldY s) with
    | some r => some (.outCR r, 1)
    | none => some (.unknownEd s, 1)
  | 2 =>
    match fieldQ s with
    | 0 => some (.sbcHlRp (rpOf (fieldP s)), 1)
    | _ => some (.adcHlRp (rpOf (fieldP s)), 1)
  | 3 =>
    match fieldQ s with
    | 0 => withWord rest fun nn => .ldMemRp nn (rpOf (fieldP s))
    | _ => withWord rest (.ldRpMem (rpOf (fieldP s)))
  | 4 =>
    match fieldY s with
    | 0 => some (.neg, 1)
    | _ => some (.unknownEd s, 1)
  | 5 =>
    match fieldY s with
    | 0 => some (.retn, 1)
    | 1 => some (.reti, 1)
    | _ => some (.unknownEd s, 1)
  | 6 =>
    match fieldY s with
    | 0 => some (.im0, 1)
    | 2 => some (.im1, 1)
    | 3 => some (.im2, 1)
    | _ => some (.unknownEd s, 1)
  | _ =>
    match fieldY s with
    | 0 => some (.ldIA, 1)
    | 1 => some (.ldRA, 1)
    | 2 => some (.ldAI, 1)
    | 3 => some (.ldAR, 1)
    | 4 => some (.rrd, 1)
    | 5 => some (.rld, 1)
    | _ => some (.unknownEd s, 1)

/-- The ED page; an index prefix has no effect on it (R99). -/
def decodeEd (s : Byte) (rest : List Byte) : Decoded :=
  match fieldX s with
  | 1 => decodeEd1 s rest
  | 2 => some (decodeEdBlock s, 1)
  | _ => some (.unknownEd s, 1)

/-! ## Units and whole instructions (R93) -/

/-- One row of the opcode table, read at the page and under the index prefix selected so far: the row's instruction
and how many of the bytes, from the selecting one on, it takes. `none` only when there are too few bytes. -/
def decodeUnit (tag : PrefixTag) (page : Page) (bytes : List Byte) : Decoded :=
  match page, tag, bytes with
  | .main, .none, op :: rest => decodeMain op rest
  | .main, .ix, op :: rest => decodeIndexMain .ix op rest
  | .main, .iy, op :: rest => decodeIndexMain .iy op rest
  | .cb, .none, s :: _ => some (decodeCb s, 1)
  | .cb, .ix, d :: s :: _ => some (decodeIndexCb .ix d s, 2)
  | .cb, .iy, d :: s :: _ => some (decodeIndexCb .iy d s, 2)
  | .ed, _, s :: rest => decodeEd s rest
  | _, _, _ => none

/-- What a prefix byte selects for the bytes after it (R93, R95); `none` for a whole instruction. -/
def Instr.selects (i : Instr) (tag : PrefixTag) : Option (PrefixTag × Page) :=
  match i with
  | .prefixDD => some (.ix, .main)
  | .prefixFD => some (.iy, .main)
  | .prefixCB => some (tag, .cb)
  | .prefixED => some (tag, .ed)
  | _ => none

/-- The units from `bytes` up to and with the first whole instruction: that instruction, and the bytes taken. -/
def decodeFrom (tag : PrefixTag) (page : Page) : List Byte → Decoded
  | [] => none
  | b :: rest =>
    match decodeUnit tag page (b :: rest) with
    | none => none
    | some (i, n) =>
      match i.selects tag with
      | none => some (i, n)
      | some (tag', page') => (decodeFrom tag' page' rest).map fun (j, m) => (j, m + 1)

/-- The instruction that starts at the head of `bytes`, every prefix byte that belongs to it absorbed (R93, R95), and
its length (R118). -/
def decode (bytes : List Byte) : Decoded := decodeFrom .none .main bytes

/-! ## The encoder, from the same tables (R94, R100 to R112) -/

def Reg8.code : Reg8 → Nat
  | .b => 0 | .c => 1 | .d => 2 | .e => 3 | .h => 4 | .l => 5 | .a => 7
def Rp.code : Rp → Nat
  | .bc => 0 | .de => 1 | .hl => 2 | .sp => 3
def Rp2.code : Rp2 → Nat
  | .bc => 0 | .de => 1 | .hl => 2 | .af => 3
def RpX.code : RpX → Nat
  | .bc => 0 | .de => 1 | .xy => 2 | .sp => 3
def Cond.code : Cond → Nat
  | .nz => 0 | .z => 1 | .nc => 2 | .c => 3 | .po => 4 | .pe => 5 | .p => 6 | .m => 7
def CondJr.code : CondJr → Nat
  | .nz => 0 | .z => 1 | .nc => 2 | .c => 3
def RegX.code : RegX → Nat
  | .b => 0 | .c => 1 | .d => 2 | .e => 3 | .xyh => 4 | .xyl => 5 | .a => 7
def Half.code : Half → Nat
  | .high => 4 | .low => 5
/-- R95: 0xDD selects IX, 0xFD selects IY. -/
def Idx.byte : Idx → Byte
  | .ix => 0xDD | .iy => 0xFD

/-- An opcode byte from its fields. -/
def op (n : Nat) : Byte := BitVec.ofNat 8 n

/-- The bytes of an instruction with its one index prefix where it has one, in memory order (R94). Of a prefix row,
the byte itself. -/
def encode : Instr → List Byte
  | .nop => [op 0x00]
  | .exAfAf => [op 0x08]
  | .djnz e => [op 0x10, e]
  | .jr e => [op 0x18, e]
  | .jrCc cc e => [op (0x20 + 8 * cc.code), e]
  | .ldRpNn rp nn => [op (0x01 + 16 * rp.code), lo nn, hi nn]
  | .addHlRp rp => [op (0x09 + 16 * rp.code)]
  | .ldIndBcA => [op 0x02]
  | .ldIndDeA => [op 0x12]
  | .ldMemHl nn => [op 0x22, lo nn, hi nn]
  | .ldMemA nn => [op 0x32, lo nn, hi nn]
  | .ldAIndBc => [op 0x0A]
  | .ldAIndDe => [op 0x1A]
  | .ldHlMem nn => [op 0x2A, lo nn, hi nn]
  | .ldAMem nn => [op 0x3A, lo nn, hi nn]
  | .incRp rp => [op (0x03 + 16 * rp.code)]
  | .decRp rp => [op (0x0B + 16 * rp.code)]
  | .incR r => [op (0x04 + 8 * r.code)]
  | .incIndHl => [op 0x34]
  | .decR r => [op (0x05 + 8 * r.code)]
  | .decIndHl => [op 0x35]
  | .ldRN r n => [op (0x06 + 8 * r.code), n]
  | .ldIndHlN n => [op 0x36, n]
  | .rlca => [op 0x07]
  | .rrca => [op 0x0F]
  | .rla => [op 0x17]
  | .rra => [op 0x1F]
  | .daa => [op 0x27]
  | .cpl => [op 0x2F]
  | .scf => [op 0x37]
  | .ccf => [op 0x3F]
  | .ldRR r r' => [op (0x40 + 8 * r.code + r'.code)]
  | .ldRIndHl r => [op (0x46 + 8 * r.code)]
  | .ldIndHlR r => [op (0x70 + r.code)]
  | .halt => [op 0x76]
  | .addAR r => [op (0x80 + r.code)]
  | .addAIndHl => [op 0x86]
  | .addAN n => [op 0xC6, n]
  | .adcAR r => [op (0x88 + r.code)]
  | .adcAIndHl => [op 0x8E]
  | .adcAN n => [op 0xCE, n]
  | .subR r => [op (0x90 + r.code)]
  | .subIndHl => [op 0x96]
  | .subN n => [op 0xD6, n]
  | .sbcAR r => [op (0x98 + r.code)]
  | .sbcAIndHl => [op 0x9E]
  | .sbcAN n => [op 0xDE, n]
  | .andR r => [op (0xA0 + r.code)]
  | .andIndHl => [op 0xA6]
  | .andN n => [op 0xE6, n]
  | .xorR r => [op (0xA8 + r.code)]
  | .xorIndHl => [op 0xAE]
  | .xorN n => [op 0xEE, n]
  | .orR r => [op (0xB0 + r.code)]
  | .orIndHl => [op 0xB6]
  | .orN n => [op 0xF6, n]
  | .cpR r => [op (0xB8 + r.code)]
  | .cpIndHl => [op 0xBE]
  | .cpN n => [op 0xFE, n]
  | .retCc cc => [op (0xC0 + 8 * cc.code)]
  | .popRp2 rp2 => [op (0xC1 + 16 * rp2.code)]
  | .ret => [op 0xC9]
  | .exx => [op 0xD9]
  | .jpHl => [op 0xE9]
  | .ldSpHl => [op 0xF9]
  | .jpCcNn cc nn => [op (0xC2 + 8 * cc.code), lo nn, hi nn]
  | .jpNn nn => [op 0xC3, lo nn, hi nn]
  | .outNA n => [op 0xD3, n]
  | .inAN n => [op 0xDB, n]
  | .exIndSpHl => [op 0xE3]
  | .exDeHl => [op 0xEB]
  | .di => [op 0xF3]
  | .ei => [op 0xFB]
  | .callCcNn cc nn => [op (0xC4 + 8 * cc.code), lo nn, hi nn]
  | .pushRp2 rp2 => [op (0xC5 + 16 * rp2.code)]
  | .callNn nn => [op 0xCD, lo nn, hi nn]
  | .rst t => [op (0xC7 + 8 * t.val)]
  | .prefixCB => [op 0xCB]
  | .prefixDD => [op 0xDD]
  | .prefixED => [op 0xED]
  | .prefixFD => [op 0xFD]
  | .ldXyNn x nn => [x.byte, op 0x21, lo nn, hi nn]
  | .ldMemXy x nn => [x.byte, op 0x22, lo nn, hi nn]
  | .ldXyMem x nn => [x.byte, op 0x2A, lo nn, hi nn]
  | .incXy x => [x.byte, op 0x23]
  | .decXy x => [x.byte, op 0x2B]
  | .addXyRp x rp => [x.byte, op (0x09 + 16 * rp.code)]
  | .pushXy x => [x.byte, op 0xE5]
  | .popXy x => [x.byte, op 0xE1]
  | .exIndSpXy x => [x.byte, op 0xE3]
  | .jpXy x => [x.byte, op 0xE9]
  | .ldSpXy x => [x.byte, op 0xF9]
  | .incIdx x d => [x.byte, op 0x34, d]
  | .decIdx x d => [x.byte, op 0x35, d]
  | .ldIdxN x d n => [x.byte, op 0x36, d, n]
  | .ldRIdx r x d => [x.byte, op (0x46 + 8 * r.code), d]
  | .ldIdxR x d r => [x.byte, op (0x70 + r.code), d]
  | .addAIdx x d => [x.byte, op 0x86, d]
  | .addAHalf x hf => [x.byte, op (0x80 + hf.code)]
  | .adcAIdx x d => [x.byte, op 0x8E, d]
  | .adcAHalf x hf => [x.byte, op (0x88 + hf.code)]
  | .subIdx x d => [x.byte, op 0x96, d]
  | .subHalf x hf => [x.byte, op (0x90 + hf.code)]
  | .sbcAIdx x d => [x.byte, op 0x9E, d]
  | .sbcAHalf x hf => [x.byte, op (0x98 + hf.code)]
  | .andIdx x d => [x.byte, op 0xA6, d]
  | .andHalf x hf => [x.byte, op (0xA0 + hf.code)]
  | .xorIdx x d => [x.byte, op 0xAE, d]
  | .xorHalf x hf => [x.byte, op (0xA8 + hf.code)]
  | .orIdx x d => [x.byte, op 0xB6, d]
  | .orHalf x hf => [x.byte, op (0xB0 + hf.code)]
  | .cpIdx x d => [x.byte, op 0xBE, d]
  | .cpHalf x hf => [x.byte, op (0xB8 + hf.code)]
  | .incHalf x hf => [x.byte, op (0x04 + 8 * hf.code)]
  | .decHalf x hf => [x.byte, op (0x05 + 8 * hf.code)]
  | .ldHalfN x hf n => [x.byte, op (0x06 + 8 * hf.code), n]
  | .ldRRHalf x r r' => [x.byte, op (0x40 + 8 * r.code + r'.code)]
  | .pOp x i => x.byte :: encode i
  | .rlcR r => [op 0xCB, op (0x00 + r.code)]
  | .rlcIndHl => [op 0xCB, op 0x06]
  | .rlcIdx x d => [x.byte, op 0xCB, d, op 0x06]
  | .rrcR r => [op 0xCB, op (0x08 + r.code)]
  | .rrcIndHl => [op 0xCB, op 0x0E]
  | .rrcIdx x d => [x.byte, op 0xCB, d, op 0x0E]
  | .rlR r => [op 0xCB, op (0x10 + r.code)]
  | .rlIndHl => [op 0xCB, op 0x16]
  | .rlIdx x d => [x.byte, op 0xCB, d, op 0x16]
  | .rrR r => [op 0xCB, op (0x18 + r.code)]
  | .rrIndHl => [op 0xCB, op 0x1E]
  | .rrIdx x d => [x.byte, op 0xCB, d, op 0x1E]
  | .slaR r => [op 0xCB, op (0x20 + r.code)]
  | .slaIndHl => [op 0xCB, op 0x26]
  | .slaIdx x d => [x.byte, op 0xCB, d, op 0x26]
  | .sraR r => [op 0xCB, op (0x28 + r.code)]
  | .sraIndHl => [op 0xCB, op 0x2E]
  | .sraIdx x d => [x.byte, op 0xCB, d, op 0x2E]
  | .unknownCb z => [op 0xCB, op (0x30 + z.val)]
  | .srlR r => [op 0xCB, op (0x38 + r.code)]
  | .srlIndHl => [op 0xCB, op 0x3E]
  | .srlIdx x d => [x.byte, op 0xCB, d, op 0x3E]
  | .bitR b r => [op 0xCB, op (0x40 + 8 * b.val + r.code)]
  | .bitIndHl b => [op 0xCB, op (0x46 + 8 * b.val)]
  | .bitIdx b x d => [x.byte, op 0xCB, d, op (0x46 + 8 * b.val)]
  | .resR b r => [op 0xCB, op (0x80 + 8 * b.val + r.code)]
  | .resIndHl b => [op 0xCB, op (0x86 + 8 * b.val)]
  | .resIdx b x d => [x.byte, op 0xCB, d, op (0x86 + 8 * b.val)]
  | .setR b r => [op 0xCB, op (0xC0 + 8 * b.val + r.code)]
  | .setIndHl b => [op 0xCB, op (0xC6 + 8 * b.val)]
  | .setIdx b x d => [x.byte, op 0xCB, d, op (0xC6 + 8 * b.val)]
  | .unknownIndexCb x d s => [x.byte, op 0xCB, d, s]
  | .unknownIndexCb36 x d => [x.byte, op 0xCB, d, op 0x36]
  | .inRC r => [op 0xED, op (0x40 + 8 * r.code)]
  | .outCR r => [op 0xED, op (0x41 + 8 * r.code)]
  | .sbcHlRp rp => [op 0xED, op (0x42 + 16 * rp.code)]
  | .adcHlRp rp => [op 0xED, op (0x4A + 16 * rp.code)]
  | .ldMemRp nn rp => [op 0xED, op (0x43 + 16 * rp.code), lo nn, hi nn]
  | .ldRpMem rp nn => [op 0xED, op (0x4B + 16 * rp.code), lo nn, hi nn]
  | .neg => [op 0xED, op 0x44]
  | .retn => [op 0xED, op 0x45]
  | .reti => [op 0xED, op 0x4D]
  | .im0 => [op 0xED, op 0x46]
  | .im1 => [op 0xED, op 0x56]
  | .im2 => [op 0xED, op 0x5E]
  | .ldIA => [op 0xED, op 0x47]
  | .ldRA => [op 0xED, op 0x4F]
  | .ldAI => [op 0xED, op 0x57]
  | .ldAR => [op 0xED, op 0x5F]
  | .rrd => [op 0xED, op 0x67]
  | .rld => [op 0xED, op 0x6F]
  | .ldi => [op 0xED, op 0xA0]
  | .cpi => [op 0xED, op 0xA1]
  | .ini => [op 0xED, op 0xA2]
  | .outi => [op 0xED, op 0xA3]
  | .ldd => [op 0xED, op 0xA8]
  | .cpd => [op 0xED, op 0xA9]
  | .ind => [op 0xED, op 0xAA]
  | .outd => [op 0xED, op 0xAB]
  | .ldir => [op 0xED, op 0xB0]
  | .cpir => [op 0xED, op 0xB1]
  | .inir => [op 0xED, op 0xB2]
  | .otir => [op 0xED, op 0xB3]
  | .lddr => [op 0xED, op 0xB8]
  | .cpdr => [op 0xED, op 0xB9]
  | .indr => [op 0xED, op 0xBA]
  | .otdr => [op 0xED, op 0xBB]
  | .unknownEd s => [op 0xED, s]

/-! ## Rows of the opcode table as words -/

/-- The first `n` bytes of a word whose bit 0 is the least significant bit of the first byte. -/
def bytesOf : Nat → Nat → List Byte
  | 0, _ => []
  | n + 1, w => BitVec.ofNat 8 w :: bytesOf n (w / 256)

/-- The bytes of a table word: `nbits` bits of `w`, then zeros up to the longest instruction (4 bytes). -/
def tableBytes (nbits w : Nat) : List Byte := bytesOf 4 (w % 2 ^ nbits)

/-- The unit that the table word's bytes end in: units are read as in `decodeFrom`, but a prefix byte that is the LAST
of the word's `n` bytes is itself the row (log entry 10: the rows of the four prefix bytes). -/
def decodeRow (tag : PrefixTag) (page : Page) : Nat → List Byte → Option Instr
  | _, [] => none
  | n, b :: rest =>
    match decodeUnit tag page (b :: rest) with
    | none => none
    | some (i, _) =>
      match i.selects tag with
      | none => some i
      | some (tag', page') => if n ≤ 1 then some i else decodeRow tag' page' (n - 1) rest

/-- The row of the opcode table that the decoder reads from a word of `nbits` bits. -/
def decodeTableWord (nbits w : Nat) : Option Instr :=
  decodeRow .none .main (nbits / 8) (tableBytes nbits w)

end Sys2Proof
end

