-- ==== Sys2Proof/Machine/State.lean ====
section
/-! DEFINITION. Everything the spec gives the machine (10_state.md), as plain data, its reset value (R45, R472), and the
reasons a step can stop. -/

namespace Sys2Proof.Machine

/-- One register file of eight 8-bit registers (10_state.md R20, R22). Pairs are no storage of their own (R21). -/
structure Bank where
  a : Byte
  f : Byte
  b : Byte
  c : Byte
  d : Byte
  e : Byte
  h : Byte
  l : Byte
  deriving DecidableEq, Repr

/-- `im` is 0, 1 or 2; the value 3 is not representable (10_state.md R36). -/
inductive IntMode where
  | im0 | im1 | im2
  deriving DecidableEq, Repr

/-- The two values of the `fault` latch other than None (10_state.md R40): the cause codes of R430. -/
inductive FaultCause where
  | stackOutOfRange
  | unknownOpcode (byte : Byte) (addr : Word)
  deriving DecidableEq, Repr

/-- One entry of the event history (20_memory.md R83; 30_encoding.md R113 for `ignored`). -/
inductive Event where
  /-- a `PortRead` call: port and returned value (R71) -/
  | portIn (port value : Byte)
  /-- a `PortWrite` call: port and value (R72); recorded for an unmapped port too -/
  | portOut (port value : Byte)
  /-- `IgnoredSubOpcode(page, s, address)` (R113), the address being that of the sub-opcode byte (log entry 3) -/
  | ignored (page : Page) (s : Byte) (addr : Word)
  deriving DecidableEq, Repr

/-- Memory: the bytes that are not 0, as (address, byte) pairs with strictly rising addresses below 65536
(`Memory.wf` in Machine/Ops.lean). An address that is not listed reads as 0 (20_memory.md R65, R472). -/
abbrev Memory := List Host.Cell

/-- The whole machine. -/
structure State where
  /-- the main register file (R20) -/
  main : Bank
  /-- the shadow register file (R22) -/
  shadow : Bank
  /-- IX and IY (R24) -/
  ix : Word
  iy : Word
  /-- the stack pointer (R25) -/
  sp : Word
  /-- the program counter (R30) -/
  pc : Word
  /-- I (R32) -/
  regI : Byte
  /-- R (R33) -/
  regR : Byte
  /-- interrupt enable flip-flops (R34, R35) -/
  iff1 : Bool
  iff2 : Bool
  /-- the interrupt mode (R36) -/
  im : IntMode
  /-- R37 -/
  halted : Bool
  /-- `interrupt_pending`, the latch (R38) -/
  pending : Bool
  /-- the transient `prefix` of the current instruction (R39) -/
  prefixTag : PrefixTag
  /-- the page the current instruction's bytes have selected; the model's own, transient as `prefixTag` (log entry 6) -/
  page : Page
  /-- the fault latch (R40); `none` is the spec's None -/
  fault : Option FaultCause
  /-- R41 -/
  mem : Memory
  /-- configuration carried unchanged by every step and every reset (R10, R42; log entry 7) -/
  cfg : Config
  /-- the event history, oldest first (R83; log entry 3) -/
  events : List Event
  /-- the state of the peripherals behind the port handlers, as a number (R42, R485): outside the core, only handlers
  read and write it (log entry 2) -/
  peripheral : Nat
  /-- what the next handler calls answer, where an input fixes it; the model's own (log entry 2) -/
  replies : List HandlerReply
  deriving DecidableEq, Repr

/-- Why a step stops with a fault: the spec's outcome `Fault(...)` (00_scope.md R15), with the state it leaves. -/
inductive Fault where
  /-- R431: raised by Push16 and Pop16 (PUSH, POP, CALL, RET, RETI, RETN, RST and the interrupt acknowledge), `INC SP`
  and `DEC SP`; and by every later step of the faulted CPU (R435). `left` is the state it leaves. Safe: it is the
  spec's own outcome. -/
  | stackOutOfRange (left : State)
  /-- R434: raised by the decoding of a primary opcode byte outside `IMPLEMENTED_PRIMARY`, and by every later step of
  the faulted CPU (R435). Safe: it is the spec's own outcome. -/
  | unknownOpcode (byte : Byte) (addr : Word) (left : State)
  /-- R115, D21: raised by the decoding when 65536 consecutive fetches gave 0xDD or 0xFD. It stands for a hang and
  leaves no state. Safe: nothing can be proved of what the hardware does after it. -/
  | prefixRun
  deriving DecidableEq, Repr

/-- Why the model has no meaning for something. -/
inductive Refusal where
  /-- raised by an arm of `exec` whose instruction has no meaning yet. Safe. -/
  | notModelled (mnemonic : String)
  /-- raised by `pOp` around a term that is not an unprefixed instruction the prefix leaves alone (R117): no bytes
  decode to such a term. Safe. -/
  | prefixHasEffect
  /-- raised by `step` when the decoder answers nothing for the three bytes at PC: it always answers, so this is never
  reached. Safe. -/
  | undecodable
  deriving DecidableEq, Repr

/-- The outcome of a step. -/
abbrev Result := Host.Outcome State Fault Refusal

/-- R45: every register of a register file is 0. -/
def Bank.reset : Bank := { a := 0, f := 0, b := 0, c := 0, d := 0, e := 0, h := 0, l := 0 }

/-- The machine at creation, which is the state after memory reset plus CPU reset with no handler registered
(70_reset_and_hazards.md R470, R472; 10_state.md R45). -/
def State.reset : State where
  main := Bank.reset
  shadow := Bank.reset
  ix := 0
  iy := 0
  sp := 0xFFFF
  pc := 0x0000
  regI := 0
  regR := 0
  iff1 := false
  iff2 := false
  im := .im0
  halted := false
  pending := false
  prefixTag := .none
  page := .main
  fault := none
  mem := []
  cfg := Config.initial
  events := []
  peripheral := 0
  replies := []

end Sys2Proof.Machine
end

