-- ==== Sys2Proof/Machine/Operands.lean ====
section
/-! DEFINITION. The operand forms (00_scope.md R12, R13; 30_encoding.md R96 to R103; 40_load8.md R130): the one place
where registers, pairs, index halves and effective addresses are read and written. -/

namespace Sys2Proof.Machine

/-! ## Register files -/

/-- A register of a register file by its field (R100). -/
def Bank.get (k : Bank) : Reg8 → Byte
  | .b => k.b | .c => k.c | .d => k.d | .e => k.e | .h => k.h | .l => k.l | .a => k.a

def Bank.set (k : Bank) (r : Reg8) (v : Byte) : Bank :=
  match r with
  | .b => { k with b := v }
  | .c => { k with c := v }
  | .d => { k with d := v }
  | .e => { k with e := v }
  | .h => { k with h := v }
  | .l => { k with l := v }
  | .a => { k with a := v }

/-- BC, DE, HL, AF as `high:low` (R21). -/
def Bank.bc (k : Bank) : Word := pair k.b k.c
def Bank.de (k : Bank) : Word := pair k.d k.e
def Bank.hl (k : Bank) : Word := pair k.h k.l
def Bank.af (k : Bank) : Word := pair k.a k.f

/-- Writing a pair writes its two registers (R21). -/
def Bank.setBc (k : Bank) (v : Word) : Bank := { k with b := hi v, c := lo v }
def Bank.setDe (k : Bank) (v : Word) : Bank := { k with d := hi v, e := lo v }
def Bank.setHl (k : Bank) (v : Word) : Bank := { k with h := hi v, l := lo v }
def Bank.setAf (k : Bank) (v : Word) : Bank := { k with a := hi v, f := lo v }

/-! ## Registers of the state -/

def State.setMain (s : State) (k : Bank) : State := { s with main := k }
def State.setPc (s : State) (v : Word) : State := { s with pc := v }
def State.setSp (s : State) (v : Word) : State := { s with sp := v }

/-- `Reg8plain` (R130): the plain register of the main file. -/
def State.reg (s : State) (r : Reg8) : Byte := s.main.get r
def State.setReg (s : State) (r : Reg8) (v : Byte) : State := s.setMain (s.main.set r v)

def State.setA (s : State) (v : Byte) : State := s.setMain { s.main with a := v }
def State.setF (s : State) (v : Byte) : State := s.setMain { s.main with f := v }
/-- Both A and F, as the accumulator operations write them (R192 to R199). -/
def State.setAF (s : State) (a f : Byte) : State := s.setMain { s.main with a := a, f := f }

/-- The pair field `rp` (R101). -/
def State.rp (s : State) : Rp → Word
  | .bc => s.main.bc | .de => s.main.de | .hl => s.main.hl | .sp => s.sp

def State.setRp (s : State) (rp : Rp) (v : Word) : State :=
  match rp with
  | .bc => s.setMain (s.main.setBc v)
  | .de => s.setMain (s.main.setDe v)
  | .hl => s.setMain (s.main.setHl v)
  | .sp => s.setSp v

def State.setHl (s : State) (v : Word) : State := s.setMain (s.main.setHl v)

/-- The pair field `rp2` of PUSH and POP (R102). -/
def State.rp2 (s : State) : Rp2 → Word
  | .bc => s.main.bc | .de => s.main.de | .hl => s.main.hl | .af => s.main.af

def State.setRp2 (s : State) (rp2 : Rp2) (v : Word) : State :=
  match rp2 with
  | .bc => s.setMain (s.main.setBc v)
  | .de => s.setMain (s.main.setDe v)
  | .hl => s.setMain (s.main.setHl v)
  | .af => s.setMain (s.main.setAf v)

/-- `XY` under a prefix (R13). -/
def State.xy (s : State) : Idx → Word
  | .ix => s.ix | .iy => s.iy

def State.setXy (s : State) (x : Idx) (v : Word) : State :=
  match x with
  | .ix => { s with ix := v }
  | .iy => { s with iy := v }

/-- XYH or XYL (R13, R24). -/
def State.half (s : State) (x : Idx) : Half → Byte
  | .high => hi (s.xy x) | .low => lo (s.xy x)

/-- `IXH <- v` means `IX <- pair(v, IXL)`; the same for the other halves (R12). -/
def State.setHalf (s : State) (x : Idx) (hf : Half) (v : Byte) : State :=
  match hf with
  | .high => s.setXy x (pair v (lo (s.xy x)))
  | .low => s.setXy x (pair (hi (s.xy x)) v)

/-- The source pair of `ADD XY,rp`: code 10 is `XY` (R230). -/
def State.rpX (s : State) (x : Idx) : RpX → Word
  | .bc => s.main.bc | .de => s.main.de | .xy => s.xy x | .sp => s.sp

/-- `Reg8` under a prefix in an instruction with no memory operand (R96 item 2, R130). -/
def State.regX (s : State) (x : Idx) : RegX → Byte
  | .b => s.main.b | .c => s.main.c | .d => s.main.d | .e => s.main.e
  | .xyh => s.half x .high | .xyl => s.half x .low | .a => s.main.a

def State.setRegX (s : State) (x : Idx) (r : RegX) (v : Byte) : State :=
  match r with
  | .b => s.setReg .b v | .c => s.setReg .c v | .d => s.setReg .d v | .e => s.setReg .e v
  | .xyh => s.setHalf x .high v | .xyl => s.setHalf x .low v | .a => s.setReg .a v

/-! ## Effective addresses -/

/-- `(XY + sext_8(d)) & 0xFFFF` (R97). -/
def State.indexed (s : State) (x : Idx) (d : Byte) : Word := s.xy x + sext d

end Sys2Proof.Machine
end

