-- ==== Sys2Proof/Machine/Flags.lean ====
section
/-! DEFINITION. The flag byte F (10_state.md R26 to R29) and every flag computation of the instruction files: from the
operands to the result and the whole new F. Operands are taken as integers, computed exactly, and narrowed at the
end. -/

namespace Sys2Proof.Machine

/-- The eight flags (R26). -/
inductive Flag where
  | s | z | y | h | x | pv | n | c
  deriving DecidableEq, Repr

/-- The bit of F that holds a flag (R26). -/
def Flag.bit : Flag → Nat
  | .s => 7 | .z => 6 | .y => 5 | .h => 4 | .x => 3 | .pv => 2 | .n => 1 | .c => 0

/-- A flag of a flag byte. -/
def flagOf (f : Byte) (fl : Flag) : Bool := f.getLsbD fl.bit

/-- A flag of the main F. -/
def State.flag (s : State) (fl : Flag) : Bool := flagOf s.main.f fl

/-- F from its eight flags, in the order of R26. -/
def packF (s z y h x pv n c : Bool) : Byte :=
  BitVec.ofNat 8
    (s.toNat * 128 + z.toNat * 64 + y.toNat * 32 + h.toNat * 16 + x.toNat * 8 + pv.toNat * 4 + n.toNat * 2 + c.toNat)

/-- F with six flags written and Y, X kept, as every instruction outside the accumulator operations leaves them (R28). -/
def keepYX (f : Byte) (s z h pv n c : Bool) : Byte :=
  packF s z (flagOf f .y) h (flagOf f .x) pv n c

/-- `parity(v)`: true when `v` has an even number of 1 bits (R12). -/
def parity (v : Byte) : Bool :=
  !(v.getLsbD 0 ^^ v.getLsbD 1 ^^ v.getLsbD 2 ^^ v.getLsbD 3 ^^ v.getLsbD 4 ^^ v.getLsbD 5 ^^ v.getLsbD 6 ^^ v.getLsbD 7)

/-- Condition evaluation (30_encoding.md R103, 45_control_flow.md R280). -/
def condHolds (f : Byte) : Cond → Bool
  | .nz => !flagOf f .z
  | .z => flagOf f .z
  | .nc => !flagOf f .c
  | .c => flagOf f .c
  | .po => !flagOf f .pv
  | .pe => flagOf f .pv
  | .p => !flagOf f .s
  | .m => flagOf f .s

/-- The four conditions of `JR cc` (R285). -/
def condJrCond : CondJr → Cond
  | .nz => .nz | .z => .z | .nc => .nc | .c => .c

/-! ## 8-bit adder, subtractor and logic (42_alu8.md R191) -/

/-- `add8`: the result and the whole new F (Y = X = 0, D7). -/
def add8 (a b : Byte) (cin : Bool) : Byte × Byte :=
  let sum := a.toNat + b.toNat + cin.toNat
  let res : Byte := BitVec.ofNat 8 sum
  let h := decide (0x0F < a.toNat % 16 + b.toNat % 16 + cin.toNat)
  let v := ((a ^^^ res) &&& (b ^^^ res)).getLsbD 7
  (res, packF (res.getLsbD 7) (res == 0) false h false v false (decide (0xFF < sum)))

/-- `sub8`: the result and the whole new F (Y = X = 0, D7). -/
def sub8 (a b : Byte) (cin : Bool) : Byte × Byte :=
  let diff : Int := a.toNat - b.toNat - cin.toNat
  let res : Byte := BitVec.ofInt 8 diff
  let h := decide (((a.toNat % 16 : Nat) : Int) - (b.toNat % 16 : Nat) - cin.toNat < 0)
  let v := ((a ^^^ b) &&& (a ^^^ res)).getLsbD 7
  (res, packF (res.getLsbD 7) (res == 0) false h false v true (decide (diff < 0)))

/-- `logic8`: the result and the whole new F; H, N, C, Y, X are 0 (D7, D9). -/
def logic8 (res : Byte) : Byte × Byte :=
  (res, packF (res.getLsbD 7) (res == 0) false false false (parity res) false false)

/-- The eight accumulator operations (30_encoding.md R104). -/
inductive AluOp where
  | add | adc | sub | sbc | and | xor | or | cp
  deriving DecidableEq, Repr

/-- The new A and F of an accumulator operation with source operand `v` (R192 to R199): `CP` leaves A. -/
def aluResult (op : AluOp) (a f v : Byte) : Byte × Byte :=
  match op with
  | .add => add8 a v false
  | .adc => add8 a v (flagOf f .c)
  | .sub => sub8 a v false
  | .sbc => sub8 a v (flagOf f .c)
  | .and => logic8 (a &&& v)
  | .xor => logic8 (a ^^^ v)
  | .or => logic8 (a ||| v)
  | .cp => (a, (sub8 a v false).2)

/-! ## INC and DEC of a byte (42_alu8.md R200 to R203) -/

/-- INC: result and F; C, Y, X kept (R200). -/
def inc8 (f v : Byte) : Byte × Byte :=
  let res := v + 1
  (res, keepYX f (res.getLsbD 7) (res == 0) (v.toNat % 16 == 0x0F) (v == 0x7F) false (flagOf f .c))

/-- DEC: result and F; C, Y, X kept (R202). -/
def dec8 (f v : Byte) : Byte × Byte :=
  let res := v - 1
  (res, keepYX f (res.getLsbD 7) (res == 0) (v.toNat % 16 == 0) (v == 0x80) true (flagOf f .c))

/-! ## Accumulator and flag operations (42_alu8.md R204 to R208) -/

/-- DAA: result and F; N, Y, X kept (R204). -/
def daaResult (a f : Byte) : Byte × Byte :=
  let low := decide (flagOf f .h = true ∨ 9 < a.toNat % 16)
  let high := decide (flagOf f .c = true ∨ 0x99 < a.toNat)
  let corr : Byte := (if low then 0x06 else 0) ||| (if high then 0x60 else 0)
  let res := if flagOf f .n then a - corr else a + corr
  let h := if flagOf f .n then flagOf f .h && decide (a.toNat % 16 < 6) else decide (9 < a.toNat % 16)
  (res, keepYX f (res.getLsbD 7) (res == 0) h (parity res) (flagOf f .n) high)

/-- CPL: F with H and N set (R205). -/
def cplF (f : Byte) : Byte := keepYX f (flagOf f .s) (flagOf f .z) true (flagOf f .pv) true (flagOf f .c)

/-- SCF (R207). -/
def scfF (f : Byte) : Byte := keepYX f (flagOf f .s) (flagOf f .z) false (flagOf f .pv) false true

/-- CCF: H takes the old C (R208). -/
def ccfF (f : Byte) : Byte :=
  keepYX f (flagOf f .s) (flagOf f .z) (flagOf f .c) (flagOf f .pv) false (!flagOf f .c)

/-! ## 16-bit arithmetic (43_alu16.md) -/

/-- ADD HL,rp: result and F; S, Z, P/V, Y, X kept (R230). -/
def add16 (f : Byte) (a b : Word) : Word × Byte :=
  let sum := a.toNat + b.toNat
  (BitVec.ofNat 16 sum,
   keepYX f (flagOf f .s) (flagOf f .z) (decide (0x0FFF < a.toNat % 0x1000 + b.toNat % 0x1000)) (flagOf f .pv) false
     (decide (0xFFFF < sum)))

/-- ADC HL,rp: result and F; Y, X kept (R231). -/
def adc16 (f : Byte) (a b : Word) : Word × Byte :=
  let cin := (flagOf f .c).toNat
  let sum := a.toNat + b.toNat + cin
  let res : Word := BitVec.ofNat 16 sum
  let v := ((a ^^^ res) &&& (b ^^^ res)).getLsbD 15
  (res, keepYX f (res.getLsbD 15) (res == 0) (decide (0x0FFF < a.toNat % 0x1000 + b.toNat % 0x1000 + cin)) v false
    (decide (0xFFFF < sum)))

/-- SBC HL,rp: result and F; Y, X kept (R232). -/
def sbc16 (f : Byte) (a b : Word) : Word × Byte :=
  let cin := (flagOf f .c).toNat
  let diff : Int := a.toNat - b.toNat - cin
  let res : Word := BitVec.ofInt 16 diff
  let h := decide (((a.toNat % 0x1000 : Nat) : Int) - (b.toNat % 0x1000 : Nat) - cin < 0)
  let v := ((a ^^^ b) &&& (a ^^^ res)).getLsbD 15
  (res, keepYX f (res.getLsbD 15) (res == 0) h v true (decide (diff < 0)))

/-! ## Rotates, shifts, bits (44_rotate_shift_bit.md) -/

/-- The seven rotates and shifts (R105). -/
inductive RotOp where
  | rlc | rrc | rl | rr | sla | sra | srl
  deriving DecidableEq, Repr

/-- A bit as the bit `i` of a byte. -/
def bitAt (c : Bool) (i : Nat) : Byte := if c then (1 : Byte) <<< i else 0

/-- The result and the rotated-out bit of a rotate or shift of `v` with the old carry `cin` (R251 to R257). -/
def rotate (op : RotOp) (cin : Bool) (v : Byte) : Byte × Bool :=
  match op with
  | .rlc => ((v <<< 1) ||| bitAt (v.getLsbD 7) 0, v.getLsbD 7)
  | .rrc => ((v >>> 1) ||| bitAt (v.getLsbD 0) 7, v.getLsbD 0)
  | .rl => ((v <<< 1) ||| bitAt cin 0, v.getLsbD 7)
  | .rr => ((v >>> 1) ||| bitAt cin 7, v.getLsbD 0)
  | .sla => (v <<< 1, v.getLsbD 7)
  | .sra => ((v >>> 1) ||| (v &&& 0x80), v.getLsbD 0)
  | .srl => (v >>> 1, v.getLsbD 0)

/-- The CB rotates and shifts: result and F (R250); Y, X kept, H = N = 0. -/
def rotResult (op : RotOp) (f v : Byte) : Byte × Byte :=
  let (res, c) := rotate op (flagOf f .c) v
  (res, keepYX f (res.getLsbD 7) (res == 0) false (parity res) false c)

/-- The rotates of A on the main page: result and F; S, Z, P/V, Y, X kept, H = N = 0 (R245 to R248). -/
def rotAResult (op : RotOp) (f a : Byte) : Byte × Byte :=
  let (res, c) := rotate op (flagOf f .c) a
  (res, keepYX f (flagOf f .s) (flagOf f .z) false (flagOf f .pv) false c)

/-- BIT: F; Z is the complement of the bit, H = 1, N = 0, the rest kept (R259, D10). -/
def bitF (f : Byte) (b : Fin 8) (v : Byte) : Byte :=
  keepYX f (flagOf f .s) (!v.getLsbD b.val) true (flagOf f .pv) false (flagOf f .c)

/-- `v & ~(1 << b)` (R260). -/
def resBit (b : Fin 8) (v : Byte) : Byte := v &&& ~~~((1 : Byte) <<< b.val)

/-- `v | (1 << b)` (R261). -/
def setBit (b : Fin 8) (v : Byte) : Byte := v ||| ((1 : Byte) <<< b.val)

/-- F of RRD, RLD and `IN r,(C)`: S, Z, P/V (parity) from the byte, H = N = 0, C, Y, X kept (R263, R264, R342). -/
def valueF (f v : Byte) : Byte := keepYX f (v.getLsbD 7) (v == 0) false (parity v) false (flagOf f .c)

/-- F of `LD A,I` and `LD A,R`: S, Z from the byte, P/V from iff2, H = N = 0, C, Y, X kept (R149, R150). -/
def loadIRF (f v : Byte) (iff2 : Bool) : Byte := keepYX f (v.getLsbD 7) (v == 0) false iff2 false (flagOf f .c)

/-! ## Block instructions (46_block.md) -/

/-- F of LDI, LDD: P/V is "BC not 0" after the decrement, H = N = 0, the rest kept (R311, D17). -/
def blockMoveF (f : Byte) (bc : Word) : Byte :=
  keepYX f (flagOf f .s) (flagOf f .z) false (bc != 0) false (flagOf f .c)

/-- F of CPI, CPD: Z, S, H from A - m, P/V is "BC not 0" after the decrement, N = 1, C, Y, X kept (R315, D17). -/
def blockCompareF (f a m : Byte) (bc : Word) : Byte :=
  let res := a - m
  keepYX f (res.getLsbD 7) (res == 0) (decide (a.toNat % 16 < m.toNat % 16)) (bc != 0) true (flagOf f .c)

/-- F of INI, IND, OUTI, OUTD: Z from the new B, N = 1, the rest kept (R319, R323, D17). -/
def blockIoF (f b : Byte) : Byte :=
  keepYX f (flagOf f .s) (b == 0) (flagOf f .h) (flagOf f .pv) true (flagOf f .c)

end Sys2Proof.Machine
end

