-- ==== Sys2Proof/Machine/Ops.lean ====
section
/-! DEFINITION. The shared operations over memory, ports, the stack and the interrupt machinery. Taking the interrupt
is `acknowledge`; a stack fault is `raiseStack`; the return from either kind of entry is `popThen`. -/

namespace Sys2Proof.Machine

/-! ## Memory (20_memory.md R60 to R66) -/

/-- The byte at an address; an address that is not listed reads as 0 (R65). -/
def Memory.read : Memory → Nat → Byte
  | [], _ => 0
  | (k, v) :: m, a => if k = a then v else Memory.read m a

/-- The memory with the address no longer listed. -/
def Memory.erase (m : Memory) (a : Nat) : Memory := m.filter fun c => c.1 != a

/-- The memory with a byte listed at its place in the rising order. -/
def Memory.insert : Memory → Nat → Byte → Memory
  | [], a, v => [(a, v)]
  | (k, w) :: m, a, v =>
    if a < k then (a, v) :: (k, w) :: m
    else if a = k then (a, v) :: m
    else (k, w) :: Memory.insert m a v

/-- Storing a byte; a byte 0 is not listed. -/
def Memory.write (m : Memory) (a : Nat) (v : Byte) : Memory :=
  if v = 0 then Memory.erase m a else Memory.insert m a v

/-- The canonical form from the address `low` on: addresses strictly rising, from `low` on and below 65536, no byte 0. -/
def Memory.wfFrom (low : Nat) : Memory → Bool
  | [] => true
  | (k, v) :: m => decide (low ≤ k) && decide (k < 65536) && v != 0 && Memory.wfFrom (k + 1) m

/-- The canonical form: equal memories are equal lists. -/
def Memory.wf (m : Memory) : Bool := Memory.wfFrom 0 m

/-- `MemRead(a, 1)` (R61). -/
def State.readByte (s : State) (a : Word) : Byte := Memory.read s.mem a.toNat

/-- `MemWrite(a, 1, v)` (R62). -/
def State.writeByte (s : State) (a : Word) (v : Byte) : State := { s with mem := Memory.write s.mem a.toNat v }

/-- `MemRead(a, 2)`: low byte at `a`, high byte at `a + 1`, each address wrapped (R64). -/
def State.readWord (s : State) (a : Word) : Word := pair (s.readByte (a + 1)) (s.readByte a)

/-- `MemWrite(a, 2, v)`: `lo(v)` at `a`, then `hi(v)` at `a + 1` (R64). -/
def State.writeWord (s : State) (a v : Word) : State := (s.writeByte a (lo v)).writeByte (a + 1) (hi v)

/-- The `n` bytes from `a` on, addresses wrapping (R31, R91). -/
def State.bytesFrom (s : State) : Nat → Word → List Byte
  | 0, _ => []
  | n + 1, a => s.readByte a :: s.bytesFrom n (a + 1)

/-- PC moved past `n` fetched bytes (R91). -/
def State.advance (s : State) (n : Nat) : State := s.setPc (s.pc + BitVec.ofNat 16 n)

/-! ## Interrupt request and port I/O (60_exceptions.md R437; 20_memory.md R71, R72) -/

/-- `interrupt()`, which is also `trigger_interrupt()`: latch the request; if IFF1 is set, also clear `halted` (R437). -/
def State.interrupt (s : State) : State := { s with pending := true, halted := s.halted && !s.iff1 }

/-- A history entry (R83). -/
def State.record (s : State) (e : Event) : State := { s with events := s.events ++ [e] }

/-- One call of a handler (R485): it answers the next scripted reply, or what it is registered to answer; the
peripheral state is the one it leaves, and it may have called `trigger_interrupt()` while it ran (R437). -/
def State.callHandler (s : State) (answer : HandlerReply) : Byte × State :=
  let r := s.replies.headD answer
  let t : State := { s with peripheral := r.peripheral, replies := s.replies.tail }
  (r.value, if r.irq then t.interrupt else t)

/-- `PortRead(p)`: the handler's value, 0xFF where none is registered (R71). -/
def State.portRead (s : State) (p : Byte) : Byte × State :=
  match s.cfg.inPorts.lookup p with
  | some fn =>
    let (v, t) := s.callHandler (Config.inHandler fn p s.peripheral)
    (v, t.record (.portIn p v))
  | none => (0xFF, s.record (.portIn p 0xFF))

/-- `PortWrite(p, v)`: the handler is called once, or the value is discarded (R72); the call is an event either way. -/
def State.portWrite (s : State) (p v : Byte) : State :=
  match s.cfg.outPorts.lookup p with
  | some fn => ((s.record (.portOut p v)).callHandler (Config.outHandler fn p v s.peripheral)).2
  | none => s.record (.portOut p v)

/-! ## Faults and the stack (60_exceptions.md R431 to R434) -/

/-- `raise StackOutOfRange` (R431). -/
def State.raiseStack (s : State) : State := { s with halted := true, fault := some .stackOutOfRange }

/-- `raise UnknownOpcode(b, a)` (R434). -/
def State.raiseUnknown (s : State) (b : Byte) (a : Word) : State :=
  { s with halted := true, fault := some (.unknownOpcode b a) }

/-- One decrement of SP and the byte stored there, or the fault with SP kept (R431, R432). -/
def State.pushByte (s : State) (v : Byte) : Except State State :=
  if s.sp = 0 then .error s.raiseStack else .ok ((s.setSp (s.sp - 1)).writeByte (s.sp - 1) v)

/-- `Push16(v)`: the high byte first (R432). `error` holds the state a stack fault leaves. -/
def State.push16 (s : State) (v : Word) : Except State State :=
  match s.pushByte (hi v) with
  | .error e => .error e
  | .ok t => t.pushByte (lo v)

/-- One byte read at SP and one increment of SP, or the fault with SP kept (R431, R433). -/
def State.popByte (s : State) : Except State (Byte × State) :=
  if s.sp = 0xFFFF then .error s.raiseStack else .ok (s.readByte s.sp, s.setSp (s.sp + 1))

/-- `Pop16()` (R433). `error` holds the state a stack fault leaves. -/
def State.pop16 (s : State) : Except State (Word × State) :=
  match s.popByte with
  | .error e => .error e
  | .ok (l, t) =>
    match t.popByte with
    | .error e => .error e
    | .ok (h, u) => .ok (pair h l, u)

/-- Push a word, then go on; a stack fault ends the step (R431). -/
def pushThen (v : Word) (k : State → State) (s : State) : Result :=
  match s.push16 v with
  | .error e => .fault (.stackOutOfRange e)
  | .ok t => .next (k t)

/-- Pop a word, then go on with it; a stack fault ends the step and nothing after it is done (R431, R433). -/
def popThen (k : Word → State → State) (s : State) : Result :=
  match s.pop16 with
  | .error e => .fault (.stackOutOfRange e)
  | .ok (v, t) => .next (k v t)

/-- The address every maskable interrupt goes to (R69, R441). -/
def interruptVector : Word := 0x0038

/-- `acknowledge()`, the trap entry (R439): `iff1`, the latch and `halted` cleared, PC pushed, PC at the vector. -/
def acknowledge (s : State) : Result :=
  pushThen s.pc (fun t => t.setPc interruptVector) { s with iff1 := false, pending := false, halted := false }

/-! ## Decode tags (10_state.md R39, 30_encoding.md R93) -/

/-- A prefix byte selects the index register or the page for the bytes after it. -/
def State.select (s : State) (tag : PrefixTag) (page : Page) : State := { s with prefixTag := tag, page := page }

/-- `prefix <- None` (R93): nothing selected. -/
def State.unselect (s : State) : State := s.select .none .main

/-- An unknown sub-opcode is logged and ignored (R113): PC is past it already. -/
def State.ignore (s : State) (page : Page) (sub : Byte) : State := s.record (.ignored page sub (s.pc - 1))

end Sys2Proof.Machine
end

