-- ==== Sys2Proof/Machine/Alu16.lean ====
section
/-! DEFINITION. 16-bit arithmetic (43_alu16.md): register only; only `INC SP` and `DEC SP` can fault (R235). -/

namespace Sys2Proof.Machine

/-- R230. -/
def execAddHlRp (rp : Rp) (s : State) : Result :=
  let (v, f) := add16 s.main.f s.main.hl (s.rp rp)
  .next ((s.setHl v).setF f)

/-- R230 under an index prefix. -/
def execAddXyRp (x : Idx) (rp : RpX) (s : State) : Result :=
  let (v, f) := add16 s.main.f (s.xy x) (s.rpX x rp)
  .next ((s.setXy x v).setF f)

/-- R231: the destination is always HL (R99). -/
def execAdcHlRp (rp : Rp) (s : State) : Result :=
  let (v, f) := adc16 s.main.f s.main.hl (s.rp rp)
  .next ((s.setHl v).setF f)

/-- R232. -/
def execSbcHlRp (rp : Rp) (s : State) : Result :=
  let (v, f) := sbc16 s.main.f s.main.hl (s.rp rp)
  .next ((s.setHl v).setF f)

/-- SP + 1, or the fault at 0xFFFF with SP kept (R233, R431). -/
def incSp (s : State) : Result :=
  if s.sp = 0xFFFF then .fault (.stackOutOfRange s.raiseStack) else .next (s.setSp (s.sp + 1))

/-- SP - 1, or the fault at 0 with SP kept (R234, R431). -/
def decSp (s : State) : Result :=
  if s.sp = 0 then .fault (.stackOutOfRange s.raiseStack) else .next (s.setSp (s.sp - 1))

/-- R233: BC, DE, HL wrap, SP faults. -/
def execIncRp (rp : Rp) (s : State) : Result :=
  match rp with
  | .sp => incSp s
  | rp => .next (s.setRp rp (s.rp rp + 1))

/-- R234. -/
def execDecRp (rp : Rp) (s : State) : Result :=
  match rp with
  | .sp => decSp s
  | rp => .next (s.setRp rp (s.rp rp - 1))

/-- R233 under an index prefix. -/
def execIncXy (x : Idx) (s : State) : Result := .next (s.setXy x (s.xy x + 1))

/-- R234 under an index prefix. -/
def execDecXy (x : Idx) (s : State) : Result := .next (s.setXy x (s.xy x - 1))

end Sys2Proof.Machine
end

