-- ==== Sys2Proof/Machine/Alu8.lean ====
section
/-! DEFINITION. 8-bit arithmetic and logic (42_alu8.md). None can fault (R209). -/

namespace Sys2Proof.Machine

/-- An accumulator operation with source operand `v`: A and the whole of F are written (R190, R191). -/
def State.alu (s : State) (op : AluOp) (v : Byte) : State :=
  let (a, f) := aluResult op s.main.a s.main.f v
  s.setAF a f

/-! `ADD` (R192) on a register, (HL), an immediate, (XY+d), an index half (R190) -/

/-- R192. -/
def execAddAR (r : Reg8) (s : State) : Result := .next (s.alu .add (s.reg r))

/-- R192. -/
def execAddAIndHl (s : State) : Result := .next (s.alu .add (s.readByte s.main.hl))

/-- R192. -/
def execAddAN (n : Byte) (s : State) : Result := .next (s.alu .add n)

/-- R192. -/
def execAddAIdx (x : Idx) (d : Byte) (s : State) : Result := .next (s.alu .add (s.readByte (s.indexed x d)))

/-- R192. -/
def execAddAHalf (x : Idx) (hf : Half) (s : State) : Result := .next (s.alu .add (s.half x hf))

/-! `ADC` (R193) on a register, (HL), an immediate, (XY+d), an index half (R190) -/

/-- R193. -/
def execAdcAR (r : Reg8) (s : State) : Result := .next (s.alu .adc (s.reg r))

/-- R193. -/
def execAdcAIndHl (s : State) : Result := .next (s.alu .adc (s.readByte s.main.hl))

/-- R193. -/
def execAdcAN (n : Byte) (s : State) : Result := .next (s.alu .adc n)

/-- R193. -/
def execAdcAIdx (x : Idx) (d : Byte) (s : State) : Result := .next (s.alu .adc (s.readByte (s.indexed x d)))

/-- R193. -/
def execAdcAHalf (x : Idx) (hf : Half) (s : State) : Result := .next (s.alu .adc (s.half x hf))

/-! `SUB` (R194) on a register, (HL), an immediate, (XY+d), an index half (R190) -/

/-- R194. -/
def execSubR (r : Reg8) (s : State) : Result := .next (s.alu .sub (s.reg r))

/-- R194. -/
def execSubIndHl (s : State) : Result := .next (s.alu .sub (s.readByte s.main.hl))

/-- R194. -/
def execSubN (n : Byte) (s : State) : Result := .next (s.alu .sub n)

/-- R194. -/
def execSubIdx (x : Idx) (d : Byte) (s : State) : Result := .next (s.alu .sub (s.readByte (s.indexed x d)))

/-- R194. -/
def execSubHalf (x : Idx) (hf : Half) (s : State) : Result := .next (s.alu .sub (s.half x hf))

/-! `SBC` (R195) on a register, (HL), an immediate, (XY+d), an index half (R190) -/

/-- R195. -/
def execSbcAR (r : Reg8) (s : State) : Result := .next (s.alu .sbc (s.reg r))

/-- R195. -/
def execSbcAIndHl (s : State) : Result := .next (s.alu .sbc (s.readByte s.main.hl))

/-- R195. -/
def execSbcAN (n : Byte) (s : State) : Result := .next (s.alu .sbc n)

/-- R195. -/
def execSbcAIdx (x : Idx) (d : Byte) (s : State) : Result := .next (s.alu .sbc (s.readByte (s.indexed x d)))

/-- R195. -/
def execSbcAHalf (x : Idx) (hf : Half) (s : State) : Result := .next (s.alu .sbc (s.half x hf))

/-! `AND` (R196) on a register, (HL), an immediate, (XY+d), an index half (R190) -/

/-- R196. -/
def execAndR (r : Reg8) (s : State) : Result := .next (s.alu .and (s.reg r))

/-- R196. -/
def execAndIndHl (s : State) : Result := .next (s.alu .and (s.readByte s.main.hl))

/-- R196. -/
def execAndN (n : Byte) (s : State) : Result := .next (s.alu .and n)

/-- R196. -/
def execAndIdx (x : Idx) (d : Byte) (s : State) : Result := .next (s.alu .and (s.readByte (s.indexed x d)))

/-- R196. -/
def execAndHalf (x : Idx) (hf : Half) (s : State) : Result := .next (s.alu .and (s.half x hf))

/-! `XOR` (R197) on a register, (HL), an immediate, (XY+d), an index half (R190) -/

/-- R197. -/
def execXorR (r : Reg8) (s : State) : Result := .next (s.alu .xor (s.reg r))

/-- R197. -/
def execXorIndHl (s : State) : Result := .next (s.alu .xor (s.readByte s.main.hl))

/-- R197. -/
def execXorN (n : Byte) (s : State) : Result := .next (s.alu .xor n)

/-- R197. -/
def execXorIdx (x : Idx) (d : Byte) (s : State) : Result := .next (s.alu .xor (s.readByte (s.indexed x d)))

/-- R197. -/
def execXorHalf (x : Idx) (hf : Half) (s : State) : Result := .next (s.alu .xor (s.half x hf))

/-! `OR` (R198) on a register, (HL), an immediate, (XY+d), an index half (R190) -/

/-- R198. -/
def execOrR (r : Reg8) (s : State) : Result := .next (s.alu .or (s.reg r))

/-- R198. -/
def execOrIndHl (s : State) : Result := .next (s.alu .or (s.readByte s.main.hl))

/-- R198. -/
def execOrN (n : Byte) (s : State) : Result := .next (s.alu .or n)

/-- R198. -/
def execOrIdx (x : Idx) (d : Byte) (s : State) : Result := .next (s.alu .or (s.readByte (s.indexed x d)))

/-- R198. -/
def execOrHalf (x : Idx) (hf : Half) (s : State) : Result := .next (s.alu .or (s.half x hf))

/-! `CP` (R199) on a register, (HL), an immediate, (XY+d), an index half (R190) -/

/-- R199. -/
def execCpR (r : Reg8) (s : State) : Result := .next (s.alu .cp (s.reg r))

/-- R199. -/
def execCpIndHl (s : State) : Result := .next (s.alu .cp (s.readByte s.main.hl))

/-- R199. -/
def execCpN (n : Byte) (s : State) : Result := .next (s.alu .cp n)

/-- R199. -/
def execCpIdx (x : Idx) (d : Byte) (s : State) : Result := .next (s.alu .cp (s.readByte (s.indexed x d)))

/-- R199. -/
def execCpHalf (x : Idx) (hf : Half) (s : State) : Result := .next (s.alu .cp (s.half x hf))

/-! INC and DEC of a byte (R200 to R203): one read, then one write of the same place -/

/-- R200. -/
def execIncR (r : Reg8) (s : State) : Result :=
  .next ((s.setReg r (inc8 s.main.f (s.reg r)).1).setF (inc8 s.main.f (s.reg r)).2)

/-- R200 under an index prefix. -/
def execIncHalf (x : Idx) (hf : Half) (s : State) : Result :=
  .next ((s.setHalf x hf (inc8 s.main.f (s.half x hf)).1).setF (inc8 s.main.f (s.half x hf)).2)

/-- R201: the byte at `a`. -/
def State.incMem (s : State) (a : Word) : State :=
  (s.writeByte a (inc8 s.main.f (s.readByte a)).1).setF (inc8 s.main.f (s.readByte a)).2

/-- R201. -/
def execIncIndHl (s : State) : Result := .next (s.incMem s.main.hl)

/-- R201. -/
def execIncIdx (x : Idx) (d : Byte) (s : State) : Result := .next (s.incMem (s.indexed x d))

/-- R202. -/
def execDecR (r : Reg8) (s : State) : Result :=
  .next ((s.setReg r (dec8 s.main.f (s.reg r)).1).setF (dec8 s.main.f (s.reg r)).2)

/-- R202 under an index prefix. -/
def execDecHalf (x : Idx) (hf : Half) (s : State) : Result :=
  .next ((s.setHalf x hf (dec8 s.main.f (s.half x hf)).1).setF (dec8 s.main.f (s.half x hf)).2)

/-- R203: the byte at `a`. -/
def State.decMem (s : State) (a : Word) : State :=
  (s.writeByte a (dec8 s.main.f (s.readByte a)).1).setF (dec8 s.main.f (s.readByte a)).2

/-- R203. -/
def execDecIndHl (s : State) : Result := .next (s.decMem s.main.hl)

/-- R203. -/
def execDecIdx (x : Idx) (d : Byte) (s : State) : Result := .next (s.decMem (s.indexed x d))

/-! Accumulator and flag operations (R204 to R208) -/

/-- R204. -/
def execDaa (s : State) : Result := .next (s.setAF (daaResult s.main.a s.main.f).1 (daaResult s.main.a s.main.f).2)

/-- R205. -/
def execCpl (s : State) : Result := .next (s.setAF (s.main.a ^^^ 0xFF) (cplF s.main.f))

/-- R206: `sub8(0, A, 0)`. -/
def execNeg (s : State) : Result := .next (s.setAF (sub8 0 s.main.a false).1 (sub8 0 s.main.a false).2)

/-- R207. -/
def execScf (s : State) : Result := .next (s.setF (scfF s.main.f))

/-- R208. -/
def execCcf (s : State) : Result := .next (s.setF (ccfF s.main.f))

end Sys2Proof.Machine
end

