-- ==== Sys2Proof/Machine/Block.lean ====
section
/-! DEFINITION. Block transfer, search and block I/O (46_block.md). None can fault; a repeating form runs all its
iterations in the one step (R327), by recursion on a bound that R328 gives. -/

namespace Sys2Proof.Machine

/-- "I" forms step pointers by +1, "D" forms by -1 (R310). -/
inductive Dir where
  | up | down
  deriving DecidableEq, Repr

/-- A pointer after one step, modulo 65536 (R310). -/
def Dir.move (dir : Dir) (a : Word) : Word :=
  match dir with
  | .up => a + 1
  | .down => a - 1

/-- `repeat body until stop`, at most `n` times: the test comes after the body (R313). -/
def repeatUntil (stop : State → Bool) (body : State → State) : Nat → State → State
  | 0, s => s
  | n + 1, s => let t := body s; if stop t then t else repeatUntil stop body n t

/-- The bound of LDIR, LDDR, CPIR, CPDR (R328). -/
def wordRepeats : Nat := 65536

/-- The bound of INIR, INDR, OTIR, OTDR (R328). -/
def byteRepeats : Nat := 256

/-- `BC = 0`, the end of a repeated move (R313). -/
def moveDone (s : State) : Bool := s.main.bc == 0

/-- `BC = 0 or F.Z = 1`, the end of a repeated search (R317). -/
def compareDone (s : State) : Bool := s.main.bc == 0 || s.flag .z

/-- `B = 0`, the end of repeated I/O (R321). -/
def ioDone (s : State) : Bool := s.main.b == 0

/-- One move (R311, R312): the byte at HL goes to DE. -/
def State.moveStep (s : State) (dir : Dir) : State :=
  let bc := s.main.bc - 1
  let k := ((s.main.setHl (dir.move s.main.hl)).setDe (dir.move s.main.de)).setBc bc
  (s.writeByte s.main.de (s.readByte s.main.hl)).setMain { k with f := blockMoveF s.main.f bc }

/-- One comparison (R315, R316): A is not written. -/
def State.compareStep (s : State) (dir : Dir) : State :=
  let bc := s.main.bc - 1
  let k := (s.main.setHl (dir.move s.main.hl)).setBc bc
  s.setMain { k with f := blockCompareF s.main.f s.main.a (s.readByte s.main.hl) bc }

/-- HL stepped, B decremented and F written: the common end of block I/O (R319, R323). -/
def State.ioAdvance (s : State) (dir : Dir) : State :=
  let b := s.main.b - 1
  let k := s.main.setHl (dir.move s.main.hl)
  s.setMain { k with b := b, f := blockIoF s.main.f b }

/-- One block input (R319, R320): the handler is called before the memory write. -/
def State.inStep (s : State) (dir : Dir) : State :=
  let (v, t) := s.portRead s.main.c
  (t.writeByte s.main.hl v).ioAdvance dir

/-- One block output (R323, R324). -/
def State.outStep (s : State) (dir : Dir) : State :=
  (s.portWrite s.main.c (s.readByte s.main.hl)).ioAdvance dir

/-- R311. -/
def execLdi (s : State) : Result := .next (s.moveStep .up)

/-- R312. -/
def execLdd (s : State) : Result := .next (s.moveStep .down)

/-- R313: with BC = 0 on entry 65536 bytes are moved (D16). -/
def execLdir (s : State) : Result := .next (repeatUntil moveDone (·.moveStep .up) wordRepeats s)

/-- R314. -/
def execLddr (s : State) : Result := .next (repeatUntil moveDone (·.moveStep .down) wordRepeats s)

/-- R315. -/
def execCpi (s : State) : Result := .next (s.compareStep .up)

/-- R316. -/
def execCpd (s : State) : Result := .next (s.compareStep .down)

/-- R317. -/
def execCpir (s : State) : Result := .next (repeatUntil compareDone (·.compareStep .up) wordRepeats s)

/-- R318. -/
def execCpdr (s : State) : Result := .next (repeatUntil compareDone (·.compareStep .down) wordRepeats s)

/-- R319. -/
def execIni (s : State) : Result := .next (s.inStep .up)

/-- R320. -/
def execInd (s : State) : Result := .next (s.inStep .down)

/-- R321: with B = 0 on entry 256 reads (D16). -/
def execInir (s : State) : Result := .next (repeatUntil ioDone (·.inStep .up) byteRepeats s)

/-- R322. -/
def execIndr (s : State) : Result := .next (repeatUntil ioDone (·.inStep .down) byteRepeats s)

/-- R323. -/
def execOuti (s : State) : Result := .next (s.outStep .up)

/-- R324. -/
def execOutd (s : State) : Result := .next (s.outStep .down)

/-- R325. -/
def execOtir (s : State) : Result := .next (repeatUntil ioDone (·.outStep .up) byteRepeats s)

/-- R326. -/
def execOtdr (s : State) : Result := .next (repeatUntil ioDone (·.outStep .down) byteRepeats s)

end Sys2Proof.Machine
end

