-- ==== Sys2Proof/Machine/Control.lean ====
section
/-! DEFINITION. Jumps, calls and returns (45_control_flow.md). None changes a flag. PC is past the whole instruction when
a meaning runs (10_state.md R30). -/

namespace Sys2Proof.Machine

/-- The relative jump: `PC <- (PC + sext_8(e)) & 0xFFFF` (R284). -/
def State.jumpRel (s : State) (e : Byte) : State := s.setPc (s.pc + sext e)

/-- R281. -/
def execJpNn (nn : Word) (s : State) : Result := .next (s.setPc nn)

/-- R282. -/
def execJpCcNn (cc : Cond) (nn : Word) (s : State) : Result :=
  .next (if condHolds s.main.f cc then s.setPc nn else s)

/-- R283: no memory is read. -/
def execJpHl (s : State) : Result := .next (s.setPc s.main.hl)

/-- R283 under an index prefix: no displacement. -/
def execJpXy (x : Idx) (s : State) : Result := .next (s.setPc (s.xy x))

/-- R284. -/
def execJr (e : Byte) (s : State) : Result := .next (s.jumpRel e)

/-- R285. -/
def execJrCc (cc : CondJr) (e : Byte) (s : State) : Result :=
  .next (if condHolds s.main.f (condJrCond cc) then s.jumpRel e else s)

/-- R286. -/
def execDjnz (e : Byte) (s : State) : Result :=
  let t := s.setReg .b (s.main.b - 1)
  .next (if s.main.b - 1 = 0 then t else t.jumpRel e)

/-- R287: the pushed PC is the address after the instruction; after a fault the jump is not taken. -/
def execCallNn (nn : Word) (s : State) : Result := pushThen s.pc (fun t => t.setPc nn) s

/-- R288: no stack traffic when not taken. -/
def execCallCcNn (cc : Cond) (nn : Word) (s : State) : Result :=
  if condHolds s.main.f cc then pushThen s.pc (fun t => t.setPc nn) s else .next s

/-- R289. -/
def execRet (s : State) : Result := popThen (fun v t => t.setPc v) s

/-- R290: no stack traffic when not taken. -/
def execRetCc (cc : Cond) (s : State) : Result :=
  if condHolds s.main.f cc then popThen (fun v t => t.setPc v) s else .next s

/-- R291: the target is `t * 8`. -/
def execRst (t : Fin 8) (s : State) : Result := pushThen s.pc (fun u => u.setPc (BitVec.ofNat 16 (8 * t.val))) s

/-- R292: iff1 and iff2 are left alone. -/
def execReti (s : State) : Result := popThen (fun v t => t.setPc v) s

/-- R293: iff2 is copied to iff1; a fault writes neither PC nor iff1. -/
def execRetn (s : State) : Result := popThen (fun v t => { t.setPc v with iff1 := t.iff2 }) s

end Sys2Proof.Machine
end

