-- ==== Sys2Proof/Machine/Io.lean ====
section
/-! DEFINITION. Port I/O and CPU control (47_io_system.md), and the unknown sub-opcodes of the ED page. None can fault. -/

namespace Sys2Proof.Machine

/-- R340: no flags. -/
def execInAN (n : Byte) (s : State) : Result :=
  let (v, t) := s.portRead n
  .next (t.setA v)

/-- R341. -/
def execOutNA (n : Byte) (s : State) : Result := .next (s.portWrite n s.main.a)

/-- R342: the port is the old C. -/
def execInRC (r : Reg8) (s : State) : Result :=
  let (v, t) := s.portRead s.main.c
  .next ((t.setReg r v).setF (valueF s.main.f v))

/-- R343. -/
def execOutCR (r : Reg8) (s : State) : Result := .next (s.portWrite s.main.c (s.reg r))

/-- R348. -/
def execNop (s : State) : Result := .next s

/-- R349: PC stays after the HALT byte (D28). -/
def execHalt (s : State) : Result := .next { s with halted := true }

/-- R350: effective at once (R480). -/
def execEi (s : State) : Result := .next { s with iff1 := true, iff2 := true }

/-- R351: the latch is left alone. -/
def execDi (s : State) : Result := .next { s with iff1 := false, iff2 := false }

/-- R352: the stored value only (D14). -/
def execIm0 (s : State) : Result := .next { s with im := .im0 }

/-- R352. -/
def execIm1 (s : State) : Result := .next { s with im := .im1 }

/-- R352. -/
def execIm2 (s : State) : Result := .next { s with im := .im2 }

/-- R113, and R344 for ED 70 and ED 71: no port access. -/
def execUnknownEd (sub : Byte) (s : State) : Result := .next (s.ignore .ed sub)

end Sys2Proof.Machine
end

