-- ==== Sys2Proof/Machine/Load16.lean ====
section
/-! DEFINITION. 16-bit loads, the stack and the exchanges (41_load16_stack_exchange.md). F changes only in `POP AF` and
`EX AF,AF'`, which replace it whole. -/

namespace Sys2Proof.Machine

/-- R160: any value is accepted, SP too (R25). -/
def execLdRpNn (rp : Rp) (nn : Word) (s : State) : Result := .next (s.setRp rp nn)

/-- R160 under an index prefix. -/
def execLdXyNn (x : Idx) (nn : Word) (s : State) : Result := .next (s.setXy x nn)

/-- R161. -/
def execLdHlMem (nn : Word) (s : State) : Result := .next (s.setHl (s.readWord nn))

/-- R161 under an index prefix. -/
def execLdXyMem (x : Idx) (nn : Word) (s : State) : Result := .next (s.setXy x (s.readWord nn))

/-- R162. -/
def execLdRpMem (rp : Rp) (nn : Word) (s : State) : Result := .next (s.setRp rp (s.readWord nn))

/-- R163. -/
def execLdMemHl (nn : Word) (s : State) : Result := .next (s.writeWord nn s.main.hl)

/-- R163 under an index prefix. -/
def execLdMemXy (x : Idx) (nn : Word) (s : State) : Result := .next (s.writeWord nn (s.xy x))

/-- R164. -/
def execLdMemRp (nn : Word) (rp : Rp) (s : State) : Result := .next (s.writeWord nn (s.rp rp))

/-- R165: a copy, no arithmetic on SP. -/
def execLdSpHl (s : State) : Result := .next (s.setSp s.main.hl)

/-- R165 under an index prefix. -/
def execLdSpXy (x : Idx) (s : State) : Result := .next (s.setSp (s.xy x))

/-- R166. -/
def execPushRp2 (rp2 : Rp2) (s : State) : Result := pushThen (s.rp2 rp2) id s

/-- R166 under an index prefix. -/
def execPushXy (x : Idx) (s : State) : Result := pushThen (s.xy x) id s

/-- R167: `POP AF` writes all of F; after a fault the pair is not written (R433). -/
def execPopRp2 (rp2 : Rp2) (s : State) : Result := popThen (fun v t => t.setRp2 rp2 v) s

/-- R167 under an index prefix. -/
def execPopXy (x : Idx) (s : State) : Result := popThen (fun v t => t.setXy x v) s

/-- R175. -/
def execExDeHl (s : State) : Result := .next (s.setMain ((s.main.setDe s.main.hl).setHl s.main.de))

/-- R176. -/
def execExAfAf (s : State) : Result :=
  .next { s with
    main := { s.main with a := s.shadow.a, f := s.shadow.f }
    shadow := { s.shadow with a := s.main.a, f := s.main.f } }

/-- R177: every register but A and F. -/
def execExx (s : State) : Result :=
  .next { s with
    main := { s.shadow with a := s.main.a, f := s.main.f }
    shadow := { s.main with a := s.shadow.a, f := s.shadow.f } }

/-- R178: the word at SP is replaced by `v`; SP + 1 is a memory address and wraps (D11). -/
def State.replaceTop (s : State) (v : Word) : State := s.writeWord s.sp v

/-- R178: both reads, then both writes (D29). -/
def execExIndSpHl (s : State) : Result := .next ((s.replaceTop s.main.hl).setHl (s.readWord s.sp))

/-- R178 under an index prefix. -/
def execExIndSpXy (x : Idx) (s : State) : Result := .next ((s.replaceTop (s.xy x)).setXy x (s.readWord s.sp))

end Sys2Proof.Machine
end

