-- ==== Sys2Proof/Machine/Load8.lean ====
section
/-! DEFINITION. 8-bit loads (40_load8.md). None can fault; only `LD A,I` and `LD A,R` write F (R130). -/

namespace Sys2Proof.Machine

/-- R131. -/
def execLdRR (r r' : Reg8) (s : State) : Result := .next (s.setReg r (s.reg r'))

/-- R131 under an index prefix, at least one operand an index half (R96 item 2). -/
def execLdRRHalf (x : Idx) (r r' : RegX) (s : State) : Result := .next (s.setRegX x r (s.regX x r'))

/-- R132. -/
def execLdRN (r : Reg8) (n : Byte) (s : State) : Result := .next (s.setReg r n)

/-- R132 under an index prefix. -/
def execLdHalfN (x : Idx) (hf : Half) (n : Byte) (s : State) : Result := .next (s.setHalf x hf n)

/-- R133. -/
def execLdRIndHl (r : Reg8) (s : State) : Result := .next (s.setReg r (s.readByte s.main.hl))

/-- R133: the destination is the plain register (R96 item 1). -/
def execLdRIdx (r : Reg8) (x : Idx) (d : Byte) (s : State) : Result := .next (s.setReg r (s.readByte (s.indexed x d)))

/-- R134. -/
def execLdIndHlR (r : Reg8) (s : State) : Result := .next (s.writeByte s.main.hl (s.reg r))

/-- R134: the source is the plain register (R96 item 1). -/
def execLdIdxR (x : Idx) (d : Byte) (r : Reg8) (s : State) : Result := .next (s.writeByte (s.indexed x d) (s.reg r))

/-- R135. -/
def execLdIndHlN (n : Byte) (s : State) : Result := .next (s.writeByte s.main.hl n)

/-- R135. -/
def execLdIdxN (x : Idx) (d n : Byte) (s : State) : Result := .next (s.writeByte (s.indexed x d) n)

/-- R136. -/
def execLdAIndBc (s : State) : Result := .next (s.setA (s.readByte s.main.bc))

/-- R137. -/
def execLdAIndDe (s : State) : Result := .next (s.setA (s.readByte s.main.de))

/-- R138. -/
def execLdAMem (nn : Word) (s : State) : Result := .next (s.setA (s.readByte nn))

/-- R139. -/
def execLdIndBcA (s : State) : Result := .next (s.writeByte s.main.bc s.main.a)

/-- R140. -/
def execLdIndDeA (s : State) : Result := .next (s.writeByte s.main.de s.main.a)

/-- R141. -/
def execLdMemA (nn : Word) (s : State) : Result := .next (s.writeByte nn s.main.a)

/-- R147. -/
def execLdIA (s : State) : Result := .next { s with regI := s.main.a }

/-- R148: all 8 bits are kept. -/
def execLdRA (s : State) : Result := .next { s with regR := s.main.a }

/-- R149. -/
def execLdAI (s : State) : Result := .next (s.setAF s.regI (loadIRF s.main.f s.regI s.iff2))

/-- R150. -/
def execLdAR (s : State) : Result := .next (s.setAF s.regR (loadIRF s.main.f s.regR s.iff2))

end Sys2Proof.Machine
end

