-- ==== Sys2Proof/Machine/Rotate.lean ====
section
/-! DEFINITION. Rotates, shifts and bit operations (44_rotate_shift_bit.md). None can fault. -/

namespace Sys2Proof.Machine

/-! ## Rotates of A (R245 to R248) -/

/-- A rotate of A: A and F are written. -/
def State.rotA (s : State) (op : RotOp) : State :=
  s.setAF (rotAResult op s.main.f s.main.a).1 (rotAResult op s.main.f s.main.a).2

/-- R245. -/
def execRlca (s : State) : Result := .next (s.rotA .rlc)

/-- R246. -/
def execRrca (s : State) : Result := .next (s.rotA .rrc)

/-- R247. -/
def execRla (s : State) : Result := .next (s.rotA .rl)

/-- R248. -/
def execRra (s : State) : Result := .next (s.rotA .rr)

/-! ## The operand of a CB-page instruction (R249): read it, write the result back to the same place, write F -/

/-- On a register. -/
def State.cbReg (s : State) (r : Reg8) (g : Byte → Byte × Byte) : State :=
  (s.setReg r (g (s.reg r)).1).setF (g (s.reg r)).2

/-- On the byte at an address: one read, then one write of it (R262). -/
def State.cbMem (s : State) (a : Word) (g : Byte → Byte × Byte) : State :=
  (s.writeByte a (g (s.readByte a)).1).setF (g (s.readByte a)).2

/-! ## Rotates and shifts (R250 to R257) -/

/-- R251. -/
def execRlcR (r : Reg8) (s : State) : Result := .next (s.cbReg r (rotResult .rlc s.main.f))

/-- R251. -/
def execRlcIndHl (s : State) : Result := .next (s.cbMem s.main.hl (rotResult .rlc s.main.f))

/-- R251. -/
def execRlcIdx (x : Idx) (d : Byte) (s : State) : Result := .next (s.cbMem (s.indexed x d) (rotResult .rlc s.main.f))

/-- R252. -/
def execRrcR (r : Reg8) (s : State) : Result := .next (s.cbReg r (rotResult .rrc s.main.f))

/-- R252. -/
def execRrcIndHl (s : State) : Result := .next (s.cbMem s.main.hl (rotResult .rrc s.main.f))

/-- R252. -/
def execRrcIdx (x : Idx) (d : Byte) (s : State) : Result := .next (s.cbMem (s.indexed x d) (rotResult .rrc s.main.f))

/-- R253. -/
def execRlR (r : Reg8) (s : State) : Result := .next (s.cbReg r (rotResult .rl s.main.f))

/-- R253. -/
def execRlIndHl (s : State) : Result := .next (s.cbMem s.main.hl (rotResult .rl s.main.f))

/-- R253. -/
def execRlIdx (x : Idx) (d : Byte) (s : State) : Result := .next (s.cbMem (s.indexed x d) (rotResult .rl s.main.f))

/-- R254. -/
def execRrR (r : Reg8) (s : State) : Result := .next (s.cbReg r (rotResult .rr s.main.f))

/-- R254. -/
def execRrIndHl (s : State) : Result := .next (s.cbMem s.main.hl (rotResult .rr s.main.f))

/-- R254. -/
def execRrIdx (x : Idx) (d : Byte) (s : State) : Result := .next (s.cbMem (s.indexed x d) (rotResult .rr s.main.f))

/-- R255. -/
def execSlaR (r : Reg8) (s : State) : Result := .next (s.cbReg r (rotResult .sla s.main.f))

/-- R255. -/
def execSlaIndHl (s : State) : Result := .next (s.cbMem s.main.hl (rotResult .sla s.main.f))

/-- R255. -/
def execSlaIdx (x : Idx) (d : Byte) (s : State) : Result := .next (s.cbMem (s.indexed x d) (rotResult .sla s.main.f))

/-- R256. -/
def execSraR (r : Reg8) (s : State) : Result := .next (s.cbReg r (rotResult .sra s.main.f))

/-- R256. -/
def execSraIndHl (s : State) : Result := .next (s.cbMem s.main.hl (rotResult .sra s.main.f))

/-- R256. -/
def execSraIdx (x : Idx) (d : Byte) (s : State) : Result := .next (s.cbMem (s.indexed x d) (rotResult .sra s.main.f))

/-- R257. -/
def execSrlR (r : Reg8) (s : State) : Result := .next (s.cbReg r (rotResult .srl s.main.f))

/-- R257. -/
def execSrlIndHl (s : State) : Result := .next (s.cbMem s.main.hl (rotResult .srl s.main.f))

/-- R257. -/
def execSrlIdx (x : Idx) (d : Byte) (s : State) : Result := .next (s.cbMem (s.indexed x d) (rotResult .srl s.main.f))

/-! ## BIT, RES, SET (R259 to R261) -/

/-- R259: the operand is not written. -/
def execBitR (b : Fin 8) (r : Reg8) (s : State) : Result := .next (s.setF (bitF s.main.f b (s.reg r)))

/-- R259. -/
def execBitIndHl (b : Fin 8) (s : State) : Result := .next (s.setF (bitF s.main.f b (s.readByte s.main.hl)))

/-- R259. -/
def execBitIdx (b : Fin 8) (x : Idx) (d : Byte) (s : State) : Result :=
  .next (s.setF (bitF s.main.f b (s.readByte (s.indexed x d))))

/-- R260: no flags. -/
def execResR (b : Fin 8) (r : Reg8) (s : State) : Result := .next (s.setReg r (resBit b (s.reg r)))

/-- R260. -/
def execResIndHl (b : Fin 8) (s : State) : Result :=
  .next (s.writeByte s.main.hl (resBit b (s.readByte s.main.hl)))

/-- R260. -/
def execResIdx (b : Fin 8) (x : Idx) (d : Byte) (s : State) : Result :=
  .next (s.writeByte (s.indexed x d) (resBit b (s.readByte (s.indexed x d))))

/-- R261: no flags. -/
def execSetR (b : Fin 8) (r : Reg8) (s : State) : Result := .next (s.setReg r (setBit b (s.reg r)))

/-- R261. -/
def execSetIndHl (b : Fin 8) (s : State) : Result :=
  .next (s.writeByte s.main.hl (setBit b (s.readByte s.main.hl)))

/-- R261. -/
def execSetIdx (b : Fin 8) (x : Idx) (d : Byte) (s : State) : Result :=
  .next (s.writeByte (s.indexed x d) (setBit b (s.readByte (s.indexed x d))))

/-! ## Digit rotates (R263, R264): always at HL (R99) -/

/-- R263. -/
def execRrd (s : State) : Result :=
  let m := s.readByte s.main.hl
  let a := (s.main.a &&& 0xF0) ||| (m &&& 0x0F)
  .next ((s.writeByte s.main.hl (((s.main.a &&& 0x0F) <<< 4) ||| (m >>> 4))).setAF a (valueF s.main.f a))

/-- R264. -/
def execRld (s : State) : Result :=
  let m := s.readByte s.main.hl
  let a := (s.main.a &&& 0xF0) ||| (m >>> 4)
  .next ((s.writeByte s.main.hl ((m <<< 4) ||| (s.main.a &&& 0x0F))).setAF a (valueF s.main.f a))

/-! ## Unknown sub-opcodes of the CB page (30_encoding.md R98, R113; R258) -/

/-- CB 30 to CB 37 (R258). -/
def execUnknownCb (z : Fin 8) (s : State) : Result := .next (s.ignore .cb (op (0x30 + z.val)))

/-- `P CB d s` with a register column (R98, D6): neither memory nor a register changes. -/
def execUnknownIndexCb (_x : Idx) (_d sub : Byte) (s : State) : Result := .next (s.ignore .cb sub)

/-- `P CB d 36` (R98, R258). -/
def execUnknownIndexCb36 (_x : Idx) (_d : Byte) (s : State) : Result := .next (s.ignore .cb 0x36)

end Sys2Proof.Machine
end

