-- ==== Sys2Proof/Machine/Prefix.lean ====
section
/-! DEFINITION. The prefix bytes and the prefix without effect (30_encoding.md R93, R95, R99, R117). -/

namespace Sys2Proof.Machine

/-- The byte 0xDD sets `prefix = IX` and decoding goes on (R93, R95); the last prefix byte of a run decides. -/
def execPrefixDD (s : State) : Result := .next (s.select .ix .main)

/-- The byte 0xFD sets `prefix = IY` and decoding goes on (R93, R95). -/
def execPrefixFD (s : State) : Result := .next (s.select .iy .main)

/-- The byte 0xCB selects the CB page for the bytes after it (R93); the prefix stays. -/
def execPrefixCB (s : State) : Result := .next (s.select s.prefixTag .cb)

/-- The byte 0xED selects the ED page for the bytes after it (R93), where the prefix has no effect (R99). -/
def execPrefixED (s : State) : Result := .next (s.select s.prefixTag .ed)

/-- The main-page instructions a DD/FD leaves alone (R117), each with its own meaning; any other term is no such
instruction. -/
def execUnaffected (i : Instr) (s : State) : Result :=
  match i with
  | .nop => execNop s
  | .exAfAf => execExAfAf s
  | .djnz e => execDjnz e s
  | .jr e => execJr e s
  | .jrCc cc e => execJrCc cc e s
  | .ldRpNn rp nn => execLdRpNn rp nn s
  | .incRp rp => execIncRp rp s
  | .decRp rp => execDecRp rp s
  | .ldIndBcA => execLdIndBcA s
  | .ldIndDeA => execLdIndDeA s
  | .ldMemA nn => execLdMemA nn s
  | .ldAIndBc => execLdAIndBc s
  | .ldAIndDe => execLdAIndDe s
  | .ldAMem nn => execLdAMem nn s
  | .incR r => execIncR r s
  | .decR r => execDecR r s
  | .ldRN r n => execLdRN r n s
  | .rlca => execRlca s
  | .rrca => execRrca s
  | .rla => execRla s
  | .rra => execRra s
  | .daa => execDaa s
  | .cpl => execCpl s
  | .scf => execScf s
  | .ccf => execCcf s
  | .halt => execHalt s
  | .ldRR r r' => execLdRR r r' s
  | .addAR r => execAddAR r s
  | .adcAR r => execAdcAR r s
  | .subR r => execSubR r s
  | .sbcAR r => execSbcAR r s
  | .andR r => execAndR r s
  | .xorR r => execXorR r s
  | .orR r => execOrR r s
  | .cpR r => execCpR r s
  | .addAN n => execAddAN n s
  | .adcAN n => execAdcAN n s
  | .subN n => execSubN n s
  | .sbcAN n => execSbcAN n s
  | .andN n => execAndN n s
  | .xorN n => execXorN n s
  | .orN n => execOrN n s
  | .cpN n => execCpN n s
  | .popRp2 rp2 => execPopRp2 rp2 s
  | .pushRp2 rp2 => execPushRp2 rp2 s
  | .retCc cc => execRetCc cc s
  | .ret => execRet s
  | .exx => execExx s
  | .exDeHl => execExDeHl s
  | .jpCcNn cc nn => execJpCcNn cc nn s
  | .jpNn nn => execJpNn nn s
  | .outNA n => execOutNA n s
  | .inAN n => execInAN n s
  | .di => execDi s
  | .ei => execEi s
  | .callCcNn cc nn => execCallCcNn cc nn s
  | .callNn nn => execCallNn nn s
  | .rst t => execRst t s
  | _ => .refused .prefixHasEffect

/-- `P op` executes exactly as the unprefixed opcode, in the same step (R117). -/
def execPOp (_x : Idx) (i : Instr) (s : State) : Result := execUnaffected i s

end Sys2Proof.Machine
end

