-- ==== Sys2Proof/Machine/Dispatch.lean ====
section
/-! DEFINITION. One arm per constructor of `Instr`. -/

namespace Sys2Proof.Machine

def exec (i : Instr) (s : State) : Host.Outcome State Fault Refusal :=
  match i with
  | .nop => Sys2Proof.Machine.execNop s
  | .exAfAf => Sys2Proof.Machine.execExAfAf s
  | .djnz e => Sys2Proof.Machine.execDjnz e s
  | .jr e => Sys2Proof.Machine.execJr e s
  | .jrCc cc e => Sys2Proof.Machine.execJrCc cc e s
  | .ldRpNn rp nn => Sys2Proof.Machine.execLdRpNn rp nn s
  | .addHlRp rp => Sys2Proof.Machine.execAddHlRp rp s
  | .ldIndBcA => Sys2Proof.Machine.execLdIndBcA s
  | .ldIndDeA => Sys2Proof.Machine.execLdIndDeA s
  | .ldMemHl nn => Sys2Proof.Machine.execLdMemHl nn s
  | .ldMemA nn => Sys2Proof.Machine.execLdMemA nn s
  | .ldAIndBc => Sys2Proof.Machine.execLdAIndBc s
  | .ldAIndDe => Sys2Proof.Machine.execLdAIndDe s
  | .ldHlMem nn => Sys2Proof.Machine.execLdHlMem nn s
  | .ldAMem nn => Sys2Proof.Machine.execLdAMem nn s
  | .incRp rp => Sys2Proof.Machine.execIncRp rp s
  | .decRp rp => Sys2Proof.Machine.execDecRp rp s
  | .incR r => Sys2Proof.Machine.execIncR r s
  | .incIndHl => Sys2Proof.Machine.execIncIndHl s
  | .decR r => Sys2Proof.Machine.execDecR r s
  | .decIndHl => Sys2Proof.Machine.execDecIndHl s
  | .ldRN r n => Sys2Proof.Machine.execLdRN r n s
  | .ldIndHlN n => Sys2Proof.Machine.execLdIndHlN n s
  | .rlca => Sys2Proof.Machine.execRlca s
  | .rrca => Sys2Proof.Machine.execRrca s
  | .rla => Sys2Proof.Machine.execRla s
  | .rra => Sys2Proof.Machine.execRra s
  | .daa => Sys2Proof.Machine.execDaa s
  | .cpl => Sys2Proof.Machine.execCpl s
  | .scf => Sys2Proof.Machine.execScf s
  | .ccf => Sys2Proof.Machine.execCcf s
  | .ldRR r r' => Sys2Proof.Machine.execLdRR r r' s
  | .ldRIndHl r => Sys2Proof.Machine.execLdRIndHl r s
  | .ldIndHlR r => Sys2Proof.Machine.execLdIndHlR r s
  | .halt => Sys2Proof.Machine.execHalt s
  | .addAR r => Sys2Proof.Machine.execAddAR r s
  | .addAIndHl => Sys2Proof.Machine.execAddAIndHl s
  | .addAN n => Sys2Proof.Machine.execAddAN n s
  | .adcAR r => Sys2Proof.Machine.execAdcAR r s
  | .adcAIndHl => Sys2Proof.Machine.execAdcAIndHl s
  | .adcAN n => Sys2Proof.Machine.execAdcAN n s
  | .subR r => Sys2Proof.Machine.execSubR r s
  | .subIndHl => Sys2Proof.Machine.execSubIndHl s
  | .subN n => Sys2Proof.Machine.execSubN n s
  | .sbcAR r => Sys2Proof.Machine.execSbcAR r s
  | .sbcAIndHl => Sys2Proof.Machine.execSbcAIndHl s
  | .sbcAN n => Sys2Proof.Machine.execSbcAN n s
  | .andR r => Sys2Proof.Machine.execAndR r s
  | .andIndHl => Sys2Proof.Machine.execAndIndHl s
  | .andN n => Sys2Proof.Machine.execAndN n s
  | .xorR r => Sys2Proof.Machine.execXorR r s
  | .xorIndHl => Sys2Proof.Machine.execXorIndHl s
  | .xorN n => Sys2Proof.Machine.execXorN n s
  | .orR r => Sys2Proof.Machine.execOrR r s
  | .orIndHl => Sys2Proof.Machine.execOrIndHl s
  | .orN n => Sys2Proof.Machine.execOrN n s
  | .cpR r => Sys2Proof.Machine.execCpR r s
  | .cpIndHl => Sys2Proof.Machine.execCpIndHl s
  | .cpN n => Sys2Proof.Machine.execCpN n s
  | .retCc cc => Sys2Proof.Machine.execRetCc cc s
  | .popRp2 rp2 => Sys2Proof.Machine.execPopRp2 rp2 s
  | .ret => Sys2Proof.Machine.execRet s
  | .exx => Sys2Proof.Machine.execExx s
  | .jpHl => Sys2Proof.Machine.execJpHl s
  | .ldSpHl => Sys2Proof.Machine.execLdSpHl s
  | .jpCcNn cc nn => Sys2Proof.Machine.execJpCcNn cc nn s
  | .jpNn nn => Sys2Proof.Machine.execJpNn nn s
  | .outNA n => Sys2Proof.Machine.execOutNA n s
  | .inAN n => Sys2Proof.Machine.execInAN n s
  | .exIndSpHl => Sys2Proof.Machine.execExIndSpHl s
  | .exDeHl => Sys2Proof.Machine.execExDeHl s
  | .di => Sys2Proof.Machine.execDi s
  | .ei => Sys2Proof.Machine.execEi s
  | .callCcNn cc nn => Sys2Proof.Machine.execCallCcNn cc nn s
  | .pushRp2 rp2 => Sys2Proof.Machine.execPushRp2 rp2 s
  | .callNn nn => Sys2Proof.Machine.execCallNn nn s
  | .rst t => Sys2Proof.Machine.execRst t s
  | .prefixCB => Sys2Proof.Machine.execPrefixCB s
  | .prefixDD => Sys2Proof.Machine.execPrefixDD s
  | .prefixED => Sys2Proof.Machine.execPrefixED s
  | .prefixFD => Sys2Proof.Machine.execPrefixFD s
  | .ldXyNn x nn => Sys2Proof.Machine.execLdXyNn x nn s
  | .ldMemXy x nn => Sys2Proof.Machine.execLdMemXy x nn s
  | .ldXyMem x nn => Sys2Proof.Machine.execLdXyMem x nn s
  | .incXy x => Sys2Proof.Machine.execIncXy x s
  | .decXy x => Sys2Proof.Machine.execDecXy x s
  | .addXyRp x rp => Sys2Proof.Machine.execAddXyRp x rp s
  | .pushXy x => Sys2Proof.Machine.execPushXy x s
  | .popXy x => Sys2Proof.Machine.execPopXy x s
  | .exIndSpXy x => Sys2Proof.Machine.execExIndSpXy x s
  | .jpXy x => Sys2Proof.Machine.execJpXy x s
  | .ldSpXy x => Sys2Proof.Machine.execLdSpXy x s
  | .incIdx x d => Sys2Proof.Machine.execIncIdx x d s
  | .decIdx x d => Sys2Proof.Machine.execDecIdx x d s
  | .ldIdxN x d n => Sys2Proof.Machine.execLdIdxN x d n s
  | .ldRIdx r x d => Sys2Proof.Machine.execLdRIdx r x d s
  | .ldIdxR x d r => Sys2Proof.Machine.execLdIdxR x d r s
  | .addAIdx x d => Sys2Proof.Machine.execAddAIdx x d s
  | .addAHalf x hf => Sys2Proof.Machine.execAddAHalf x hf s
  | .adcAIdx x d => Sys2Proof.Machine.execAdcAIdx x d s
  | .adcAHalf x hf => Sys2Proof.Machine.execAdcAHalf x hf s
  | .subIdx x d => Sys2Proof.Machine.execSubIdx x d s
  | .subHalf x hf => Sys2Proof.Machine.execSubHalf x hf s
  | .sbcAIdx x d => Sys2Proof.Machine.execSbcAIdx x d s
  | .sbcAHalf x hf => Sys2Proof.Machine.execSbcAHalf x hf s
  | .andIdx x d => Sys2Proof.Machine.execAndIdx x d s
  | .andHalf x hf => Sys2Proof.Machine.execAndHalf x hf s
  | .xorIdx x d => Sys2Proof.Machine.execXorIdx x d s
  | .xorHalf x hf => Sys2Proof.Machine.execXorHalf x hf s
  | .orIdx x d => Sys2Proof.Machine.execOrIdx x d s
  | .orHalf x hf => Sys2Proof.Machine.execOrHalf x hf s
  | .cpIdx x d => Sys2Proof.Machine.execCpIdx x d s
  | .cpHalf x hf => Sys2Proof.Machine.execCpHalf x hf s
  | .incHalf x hf => Sys2Proof.Machine.execIncHalf x hf s
  | .decHalf x hf => Sys2Proof.Machine.execDecHalf x hf s
  | .ldHalfN x hf n => Sys2Proof.Machine.execLdHalfN x hf n s
  | .ldRRHalf x r r' => Sys2Proof.Machine.execLdRRHalf x r r' s
  | .pOp x inner => Sys2Proof.Machine.execPOp x inner s
  | .rlcR r => Sys2Proof.Machine.execRlcR r s
  | .rlcIndHl => Sys2Proof.Machine.execRlcIndHl s
  | .rlcIdx x d => Sys2Proof.Machine.execRlcIdx x d s
  | .rrcR r => Sys2Proof.Machine.execRrcR r s
  | .rrcIndHl => Sys2Proof.Machine.execRrcIndHl s
  | .rrcIdx x d => Sys2Proof.Machine.execRrcIdx x d s
  | .rlR r => Sys2Proof.Machine.execRlR r s
  | .rlIndHl => Sys2Proof.Machine.execRlIndHl s
  | .rlIdx x d => Sys2Proof.Machine.execRlIdx x d s
  | .rrR r => Sys2Proof.Machine.execRrR r s
  | .rrIndHl => Sys2Proof.Machine.execRrIndHl s
  | .rrIdx x d => Sys2Proof.Machine.execRrIdx x d s
  | .slaR r => Sys2Proof.Machine.execSlaR r s
  | .slaIndHl => Sys2Proof.Machine.execSlaIndHl s
  | .slaIdx x d => Sys2Proof.Machine.execSlaIdx x d s
  | .sraR r => Sys2Proof.Machine.execSraR r s
  | .sraIndHl => Sys2Proof.Machine.execSraIndHl s
  | .sraIdx x d => Sys2Proof.Machine.execSraIdx x d s
  | .unknownCb z => Sys2Proof.Machine.execUnknownCb z s
  | .srlR r => Sys2Proof.Machine.execSrlR r s
  | .srlIndHl => Sys2Proof.Machine.execSrlIndHl s
  | .srlIdx x d => Sys2Proof.Machine.execSrlIdx x d s
  | .bitR b r => Sys2Proof.Machine.execBitR b r s
  | .bitIndHl b => Sys2Proof.Machine.execBitIndHl b s
  | .bitIdx b x d => Sys2Proof.Machine.execBitIdx b x d s
  | .resR b r => Sys2Proof.Machine.execResR b r s
  | .resIndHl b => Sys2Proof.Machine.execResIndHl b s
  | .resIdx b x d => Sys2Proof.Machine.execResIdx b x d s
  | .setR b r => Sys2Proof.Machine.execSetR b r s
  | .setIndHl b => Sys2Proof.Machine.execSetIndHl b s
  | .setIdx b x d => Sys2Proof.Machine.execSetIdx b x d s
  | .unknownIndexCb x d sub => Sys2Proof.Machine.execUnknownIndexCb x d sub s
  | .unknownIndexCb36 x d => Sys2Proof.Machine.execUnknownIndexCb36 x d s
  | .inRC r => Sys2Proof.Machine.execInRC r s
  | .outCR r => Sys2Proof.Machine.execOutCR r s
  | .sbcHlRp rp => Sys2Proof.Machine.execSbcHlRp rp s
  | .adcHlRp rp => Sys2Proof.Machine.execAdcHlRp rp s
  | .ldMemRp nn rp => Sys2Proof.Machine.execLdMemRp nn rp s
  | .ldRpMem rp nn => Sys2Proof.Machine.execLdRpMem rp nn s
  | .neg => Sys2Proof.Machine.execNeg s
  | .retn => Sys2Proof.Machine.execRetn s
  | .reti => Sys2Proof.Machine.execReti s
  | .im0 => Sys2Proof.Machine.execIm0 s
  | .im1 => Sys2Proof.Machine.execIm1 s
  | .im2 => Sys2Proof.Machine.execIm2 s
  | .ldIA => Sys2Proof.Machine.execLdIA s
  | .ldRA => Sys2Proof.Machine.execLdRA s
  | .ldAI => Sys2Proof.Machine.execLdAI s
  | .ldAR => Sys2Proof.Machine.execLdAR s
  | .rrd => Sys2Proof.Machine.execRrd s
  | .rld => Sys2Proof.Machine.execRld s
  | .ldi => Sys2Proof.Machine.execLdi s
  | .cpi => Sys2Proof.Machine.execCpi s
  | .ini => Sys2Proof.Machine.execIni s
  | .outi => Sys2Proof.Machine.execOuti s
  | .ldd => Sys2Proof.Machine.execLdd s
  | .cpd => Sys2Proof.Machine.execCpd s
  | .ind => Sys2Proof.Machine.execInd s
  | .outd => Sys2Proof.Machine.execOutd s
  | .ldir => Sys2Proof.Machine.execLdir s
  | .cpir => Sys2Proof.Machine.execCpir s
  | .inir => Sys2Proof.Machine.execInir s
  | .otir => Sys2Proof.Machine.execOtir s
  | .lddr => Sys2Proof.Machine.execLddr s
  | .cpdr => Sys2Proof.Machine.execCpdr s
  | .indr => Sys2Proof.Machine.execIndr s
  | .otdr => Sys2Proof.Machine.execOtdr s
  | .unknownEd sub => Sys2Proof.Machine.execUnknownEd sub s

end Sys2Proof.Machine
end

