-- ==== Sys2Proof/Machine/Step.lean ====
section
/-! DEFINITION. The step procedure (60_exceptions.md R436) and the placing of one instruction where a step fetches it. -/

namespace Sys2Proof.Machine

/-- The outcome a latched fault gives: the state is left as it is (R435). -/
def FaultCause.outcome (c : FaultCause) (s : State) : Fault :=
  match c with
  | .stackOutOfRange => .stackOutOfRange s
  | .unknownOpcode b a => .unknownOpcode b a s

/-- The byte is a primary opcode (not DD or FD, R17) outside `IMPLEMENTED_PRIMARY` (R93, R114). -/
def rejectsPrimary (c : Config) (b : Byte) : Bool := b != 0xDD && b != 0xFD && c.unimplemented.contains b

/-- The `UnknownOpcode` check applies where the next byte is the primary opcode: on the main page (R93). -/
def State.atUnknownPrimary (s : State) : Bool := s.page == .main && rejectsPrimary s.cfg (s.readByte s.pc)

/-- Decode and execute one instruction (R93): read a unit at PC, run it with PC past its bytes; a prefix byte is a unit
after which reading goes on in the same step. `n` bounds the units: 65536 prefix bytes in a row never end (R115). -/
def runUnits : Nat → State → Result
  | 0, _ => .fault .prefixRun
  | n + 1, s =>
    if s.atUnknownPrimary then
      .fault (.unknownOpcode (s.readByte s.pc) s.pc ((s.advance 1).unselect.raiseUnknown (s.readByte s.pc) s.pc))
    else
      match decodeUnit s.prefixTag s.page (s.bytesFrom 3 s.pc) with
      | none => .refused .undecodable
      | some (i, len) =>
        match i.selects s.prefixTag with
        | none => exec i (s.advance len).unselect
        | some _ =>
          match exec i (s.advance len) with
          | .next t => runUnits n t
          | o => o

/-- Units enough for every instruction that ends: up to 65535 prefix bytes, the CB or ED byte, the sub-opcode (R115). -/
def maxUnits : Nat := 65537

/-- The maskable interrupt is taken at this step's entry (R438). -/
def State.interruptEligible (s : State) : Bool := s.pending && s.iff1

/-- `step()` (R436). -/
def step (s : State) : Result :=
  match s.fault with
  | some c => .fault (c.outcome s)
  | none =>
    if s.unselect.interruptEligible then acknowledge s.unselect
    else if s.halted then .next s.unselect
    else runUnits maxUnits s.unselect

/-- The bytes stored from `a` on, addresses wrapping (20_memory.md R63). -/
def State.storeBytes (s : State) : Word → List Byte → State
  | _, [] => s
  | a, b :: rest => (s.writeByte a b).storeBytes (a + 1) rest

/-- The table word's bytes stored at PC, where the next step fetches (log entry 1). -/
def State.withFetchWord (s : State) (nbits w : Nat) : State := s.storeBytes s.pc (tableBytes nbits w)

end Sys2Proof.Machine
end

