-- ==== Sys2Proof/Machine/AsmText.lean ====
section
/-! DEFINITION. The text side of the assembler (49_assembler.md R373 to R379): lines, statements, labels, numbers,
expressions and operand classes. Everything is a total function on lists of characters. -/

namespace Sys2Proof.Machine

/-! ## Characters and words -/

/-- Whitespace other than the line terminator (R374). -/
def isBlank (c : Char) : Bool := c == ' ' || c == '\t' || c == '\r'

/-- An identifier begins with a letter or `_` (R376). -/
def isIdentStart (c : Char) : Bool := c.isAlpha || c == '_'

/-- ... and goes on with letters, digits and `_` (R376). -/
def isIdentChar (c : Char) : Bool := c.isAlpha || c.isDigit || c == '_'

/-- Text without the whitespace around it. -/
def strip (cs : List Char) : List Char :=
  ((cs.dropWhile isBlank).reverse.dropWhile isBlank).reverse

/-- Everything is matched without regard to case (R376). -/
def upperText (cs : List Char) : String := String.ofList (cs.map Char.toUpper)

/-- The character joined to the first piece. -/
def joinHead (c : Char) : List (List Char) → List (List Char)
  | [] => [[c]]
  | p :: ps => (c :: p) :: ps

/-- The lines of a text (R373); a CR before the LF is whitespace at the line's end. -/
def splitLines : List Char → List (List Char)
  | [] => [[]]
  | c :: cs => if c = '\n' then [] :: splitLines cs else joinHead c (splitLines cs)

/-- Item 1 of R373: the comment and its `;` cut off. -/
def cutComment (cs : List Char) : List Char := cs.takeWhile (· != ';')

/-- Item 2 of R373: split at every space, colon, space, from the left. -/
def splitStatements : List Char → List (List Char)
  | ' ' :: ':' :: ' ' :: cs => [] :: splitStatements cs
  | c :: cs => joinHead c (splitStatements cs)
  | [] => [[]]

/-- Item 3 of R373: the label that the stripped statement begins with, upper-cased (R376), and the rest. -/
def splitLabel (cs : List Char) : Option String × List Char :=
  match cs.dropWhile isIdentChar with
  | ':' :: rest =>
    match cs with
    | c :: _ => if isIdentStart c then (some (upperText (cs.takeWhile isIdentChar)), strip rest) else (none, cs)
    | [] => (none, cs)
  | _ => (none, cs)

/-- Split at the commas outside parentheses (item 4 of R373). -/
def splitCommas (depth : Nat) : List Char → List (List Char)
  | [] => [[]]
  | c :: cs =>
    if c = ',' ∧ depth = 0 then [] :: splitCommas 0 cs
    else joinHead c (splitCommas (if c = '(' then depth + 1 else if c = ')' then depth - 1 else depth) cs)

/-- One statement of the source (R373). -/
structure AsmStatement where
  /-- the line, from 1 -/
  line : Nat
  /-- the stripped text, for the listing (R403) -/
  text : List Char
  /-- the label, upper-cased -/
  label : Option String
  /-- the mnemonic or directive, upper-cased; none where nothing follows the label -/
  mnemonic : Option String
  /-- the operands, stripped -/
  operands : List (List Char)
  deriving DecidableEq, Repr

/-- One statement from its piece of the line. -/
def readStatement (line : Nat) (piece : List Char) : AsmStatement :=
  let text := strip piece
  let (label, body) := splitLabel text
  let args := strip (body.dropWhile fun c => !isBlank c)
  { line := line
    text := text
    label := label
    mnemonic := if body = [] then none else some (upperText (body.takeWhile fun c => !isBlank c))
    operands := if args = [] then [] else (splitCommas 0 args).map strip }

/-- The statements of the lines from number `n` on. -/
def readLines (n : Nat) : List (List Char) → List AsmStatement
  | [] => []
  | l :: ls => (splitStatements (cutComment l)).map (readStatement n) ++ readLines (n + 1) ls

/-- The statements of a source text, in order. -/
def readSource (source : String) : List AsmStatement := readLines 1 (splitLines source.toList)

/-! ## Errors -/

/-- What is wrong with a statement (R412 to R415, R417). -/
inductive AsmErrorKind where
  | invalidOperands (mnemonic : String) (operands : List String)
  | undefinedLabel (name : String)
  | outOfRangeRelative (offset : Int)
  | badNumber (text : String)
  | duplicateLabel (name : String)
  | addressOverflow
  deriving DecidableEq, Repr

/-- An error with the line of its statement (R416). -/
structure AsmError where
  line : Nat
  kind : AsmErrorKind
  deriving DecidableEq, Repr

/-- Why an operand or a value is refused, before the statement's mnemonic is named in the error. -/
inductive AsmFault where
  /-- no encoding matches (R412) -/
  | noMatch
  | badNumber (text : String)
  | undefinedLabel (name : String)
  | outOfRangeRelative (offset : Int)
  deriving DecidableEq, Repr

/-! ## Tokens (R375, R376) -/

inductive AsmToken where
  | num (v : Nat)
  | bad (text : String)
  | ident (name : String)
  | plus
  | minus
  | other (c : Char)
  deriving DecidableEq, Repr

/-- The value of a decimal digit, or of a hexadecimal digit of either case. -/
def digitValue (c : Char) : Option Nat :=
  if '0' ≤ c ∧ c ≤ '9' then some (c.toNat - '0'.toNat)
  else if 'a' ≤ c ∧ c ≤ 'f' then some (c.toNat - 'a'.toNat + 10)
  else if 'A' ≤ c ∧ c ≤ 'F' then some (c.toNat - 'A'.toNat + 10)
  else none

/-- The value of digits in a base, onto what the digits before them gave; `none` at a character that is no digit. -/
def digitsValue (base : Nat) (acc : Nat) : List Char → Option Nat
  | [] => some acc
  | c :: cs =>
    match digitValue c with
    | some v => if v < base then digitsValue base (acc * base + v) cs else none
    | none => none

/-- A number (R375): decimal digits, or `0x` and at least one hexadecimal digit. -/
def numberValue : List Char → Option Nat
  | '0' :: 'x' :: c :: cs => digitsValue 16 0 (c :: cs)
  | '0' :: 'X' :: c :: cs => digitsValue 16 0 (c :: cs)
  | cs => digitsValue 10 0 cs

/-- A run of letters, digits and `_` as a token: a number where it begins with a digit (R375). -/
def wordToken (w : List Char) : AsmToken :=
  match w with
  | c :: _ =>
    if c.isDigit then
      match numberValue w with
      | some v => .num v
      | none => .bad (String.ofList w)
    else .ident (upperText w)
  | [] => .other ' '

/-- The word that the text begins with, and the tokens after it. A token that begins with a digit ends at the first
character that is no letter, digit or `_`, so `1.5` and `12$` hold the number 1 or 12 and a character that is in no
expression (DESIGN CHOICE: R375 does not say where a token ends; log entry 15). -/
def lexParts : List Char → List Char × List AsmToken
  | [] => ([], [])
  | c :: cs =>
    let (w, ts) := lexParts cs
    if isIdentChar c then (c :: w, ts)
    else
      let ts := if w = [] then ts else wordToken w :: ts
      if isBlank c then ([], ts)
      else if c = '+' then ([], .plus :: ts)
      else if c = '-' then ([], .minus :: ts)
      else ([], .other c :: ts)

/-- The tokens of a text. -/
def lexTokens (cs : List Char) : List AsmToken :=
  let (w, ts) := lexParts cs
  if w = [] then ts else wordToken w :: ts

/-- The first bad literal (R375, R415). -/
def firstBad : List AsmToken → Option String
  | [] => none
  | .bad t :: _ => some t
  | _ :: ts => firstBad ts

/-! ## Reserved words (R376) -/

/-- The mnemonics (R404 to R410) and directives (R380 to R384). -/
def mnemonicWords : List String :=
  ["ORG", "EQU", "DB", "DW", "DS", "LD", "PUSH", "POP", "EX", "EXX"] ++
  ["ADD", "ADC", "SUB", "SBC", "AND", "XOR", "OR", "CP", "INC", "DEC", "DAA", "CPL", "SCF", "CCF", "NEG"] ++
  ["RLCA", "RRCA", "RLA", "RRA", "RLC", "RRC", "RL", "RR", "SLA", "SRA", "SRL", "BIT", "RES", "SET", "RRD", "RLD"] ++
  ["JP", "JR", "DJNZ", "CALL", "RET", "RST", "RETI", "RETN"] ++
  ["LDI", "LDD", "LDIR", "LDDR", "CPI", "CPD", "CPIR", "CPDR"] ++
  ["INI", "IND", "INIR", "INDR", "OUTI", "OUTD", "OTIR", "OTDR"] ++
  ["IN", "OUT", "NOP", "HALT", "EI", "DI", "IM"]

/-- The register and condition names of R376; `AF'` is no identifier. -/
def registerWords : List String :=
  ["A", "B", "C", "D", "E", "H", "L", "I", "R", "AF", "BC", "DE", "HL", "SP", "IX", "IY"] ++
  ["NZ", "Z", "NC", "PO", "PE", "P", "M"]

/-- A reserved word: never looked up as a label. -/
def isReserved (name : String) : Bool := registerWords.contains name || mnemonicWords.contains name

/-! ## Expressions (R377) -/

inductive AsmTerm where
  | num (v : Nat)
  | ident (name : String)
  deriving DecidableEq, Repr

/-- `['-'] term [ ('+' | '-') term ]`: `second` holds whether the sign before it is a minus. -/
structure AsmExpr where
  negated : Bool
  first : AsmTerm
  second : Option (Bool × AsmTerm)
  deriving DecidableEq, Repr

def termOf : AsmToken → Option AsmTerm
  | .num v => some (.num v)
  | .ident name => if isReserved name then none else some (.ident name)
  | .bad _ | .plus | .minus | .other _ => none

/-- `term [ ('+' | '-') term ]` and nothing after it. -/
def sumOf (negated : Bool) : List AsmToken → Option AsmExpr
  | [t] => (termOf t).map fun a => { negated := negated, first := a, second := none }
  | [t, .plus, u] =>
    match termOf t, termOf u with
    | some a, some b => some { negated := negated, first := a, second := some (false, b) }
    | _, _ => none
  | [t, .minus, u] =>
    match termOf t, termOf u with
    | some a, some b => some { negated := negated, first := a, second := some (true, b) }
    | _, _ => none
  | _ => none

/-- An expression from tokens; a bad literal anywhere in them is reported as such (log entry 12). -/
def exprOf (ts : List AsmToken) : Except AsmFault AsmExpr :=
  match firstBad ts with
  | some t => .error (.badNumber t)
  | none =>
    let e :=
      match ts with
      | .minus :: us => sumOf true us
      | us => sumOf false us
    match e with
    | some e => .ok e
    | none => .error .noMatch

/-- Expression of a directive's operand. -/
def exprText (cs : List Char) : Except AsmFault AsmExpr := exprOf (lexTokens cs)

/-- The label table (R371), in the order of definition. -/
abbrev AsmLabels := List (String × Nat)

def AsmTerm.isIdent : AsmTerm → Bool
  | .num _ => false
  | .ident _ => true

/-- The value depends on a symbol (R379). -/
def AsmExpr.usesSymbol (e : AsmExpr) : Bool :=
  e.first.isIdent || (match e.second with | some (_, t) => t.isIdent | none => false)

/-- The value of a term, strictly (R377). -/
def AsmTerm.value (labels : AsmLabels) : AsmTerm → Except AsmFault Int
  | .num v => .ok v
  | .ident name =>
    match labels.lookup name with
    | some v => .ok v
    | none => .error (.undefinedLabel name)

/-- The value of an expression, strictly: an unbounded integer (R377). -/
def AsmExpr.value (labels : AsmLabels) (e : AsmExpr) : Except AsmFault Int := do
  let a ← e.first.value labels
  let a := if e.negated then -a else a
  match e.second with
  | none => .ok a
  | some (minus, t) =>
    let b ← t.value labels
    .ok (if minus then a - b else a + b)

/-! ## Operand classes (R378) -/

/-- Register8. -/
inductive AsmReg8 where
  | plain (r : Reg8)
  | i
  | r
  deriving DecidableEq, Repr

/-- Register16. -/
inductive AsmReg16 where
  | rp (p : Rp)
  | af
  | idx (x : Idx)
  | afShadow
  deriving DecidableEq, Repr

/-- IndirectReg. -/
inductive AsmIndirect where
  | hl | bc | de | sp | c
  | idx (x : Idx)
  deriving DecidableEq, Repr

inductive AsmOperand where
  | reg8 (r : AsmReg8)
  | reg16 (p : AsmReg16)
  | cond (c : Cond)
  | indirectReg (i : AsmIndirect)
  /-- IndexedIX and IndexedIY: `minus` where the operand is `(IX-expr)` -/
  | indexed (x : Idx) (minus : Bool) (e : AsmExpr)
  | indirect (e : AsmExpr)
  | immediate (e : AsmExpr)
  deriving DecidableEq, Repr

def reg8Name : String → Option AsmReg8
  | "A" => some (.plain .a) | "B" => some (.plain .b) | "C" => some (.plain .c) | "D" => some (.plain .d)
  | "E" => some (.plain .e) | "H" => some (.plain .h) | "L" => some (.plain .l)
  | "I" => some .i | "R" => some .r
  | _ => none

def reg16Name : String → Option AsmReg16
  | "BC" => some (.rp .bc) | "DE" => some (.rp .de) | "HL" => some (.rp .hl) | "SP" => some (.rp .sp)
  | "AF" => some .af | "IX" => some (.idx .ix) | "IY" => some (.idx .iy) | "AF'" => some .afShadow
  | _ => none

def condName : String → Option Cond
  | "NZ" => some .nz | "Z" => some .z | "NC" => some .nc | "C" => some .c
  | "PO" => some .po | "PE" => some .pe | "P" => some .p | "M" => some .m
  | _ => none

def indirectName : String → Option AsmIndirect
  | "HL" => some .hl | "BC" => some .bc | "DE" => some .de | "SP" => some .sp | "C" => some .c
  | "IX" => some (.idx .ix) | "IY" => some (.idx .iy)
  | _ => none

/-- The text between one pair of parentheses around the whole operand. -/
def innerText (cs : List Char) : Option (List Char) :=
  match cs with
  | '(' :: rest =>
    match rest.reverse with
    | ')' :: r => some (strip r.reverse)
    | _ => none
  | _ => none

/-- A parenthesised operand from its inner text. -/
def classifyInner (cs : List Char) : Except AsmFault AsmOperand :=
  match indirectName (upperText cs) with
  | some i => .ok (.indirectReg i)
  | none =>
    match lexTokens cs with
    | .ident "IX" :: .plus :: ts => (exprOf ts).map (.indexed .ix false)
    | .ident "IX" :: .minus :: ts => (exprOf ts).map (.indexed .ix true)
    | .ident "IY" :: .plus :: ts => (exprOf ts).map (.indexed .iy false)
    | .ident "IY" :: .minus :: ts => (exprOf ts).map (.indexed .iy true)
    | ts => (exprOf ts).map .indirect

/-- The class of an operand that is no condition, first match first. -/
def classifyPlain (cs : List Char) : Except AsmFault AsmOperand :=
  match reg8Name (upperText cs) with
  | some r => .ok (.reg8 r)
  | none =>
    match reg16Name (upperText cs) with
    | some p => .ok (.reg16 p)
    | none =>
      match innerText cs with
      | some inner => classifyInner inner
      | none => (exprText cs).map .immediate

/-- The first operand of these four may be a condition. -/
def takesCondition (mnemonic : String) : Bool := ["JP", "JR", "CALL", "RET"].contains mnemonic

/-- The class of the first operand of a mnemonic: a condition name is a condition where one may stand. -/
def classifyFirst (mnemonic : String) (cs : List Char) : Except AsmFault AsmOperand :=
  match (if takesCondition mnemonic then condName (upperText cs) else none) with
  | some c => .ok (.cond c)
  | none => classifyPlain cs

/-- The classes of the operands after the first. -/
def classifyRest : List (List Char) → Except AsmFault (List AsmOperand)
  | [] => .ok []
  | t :: ts => do
    let o ← classifyPlain t
    let os ← classifyRest ts
    .ok (o :: os)

/-- The classes of all the operands of a statement. Of two faulty operands the leftmost one's error is reported (DESIGN
CHOICE: R370 orders statements only; log entry 12). -/
def classifyOperands (mnemonic : String) : List (List Char) → Except AsmFault (List AsmOperand)
  | [] => .ok []
  | t :: ts => do
    let o ← classifyFirst mnemonic t
    let os ← classifyRest ts
    .ok (o :: os)

end Sys2Proof.Machine
end

