-- ==== Sys2Proof/Machine/AsmSelect.lean ====
section
/-! DEFINITION. The encoder's choice (49_assembler.md R379, R389, R404 to R411): from a mnemonic and its operands to the one
instruction of the CPU they name. Its bytes are `encode` of that instruction. -/

namespace Sys2Proof.Machine

/-- How operand values are found: strictly (pass 2), or in tolerant mode (pass 1), where 0 stands in for a value that
depends on a symbol (R377, R379, R386). -/
structure AsmEnv where
  strict : Bool
  labels : AsmLabels
  /-- the address of the instruction's first byte (R389) -/
  addr : Nat
  deriving DecidableEq, Repr

/-- The value of an expression. -/
def AsmEnv.value (env : AsmEnv) (e : AsmExpr) : Except AsmFault Int :=
  if env.strict then e.value env.labels
  else if e.usesSymbol then .ok 0
  else e.value env.labels

/-- A value in a range, or no encoding matches (R379). -/
def AsmEnv.within (env : AsmEnv) (low high : Int) (e : AsmExpr) : Except AsmFault Int := do
  let v ← env.value e
  if low ≤ v ∧ v ≤ high then .ok v else .error .noMatch

/-- An 8-bit immediate or `DB` item: -128..255 (R379). -/
def AsmEnv.byte (env : AsmEnv) (e : AsmExpr) : Except AsmFault Byte :=
  (env.within (-128) 255 e).map (BitVec.ofInt 8)

/-- A 16-bit immediate, address or `DW` item: -32768..65535 (R379). -/
def AsmEnv.word (env : AsmEnv) (e : AsmExpr) : Except AsmFault Word :=
  (env.within (-32768) 65535 e).map (BitVec.ofInt 16)

/-- A displacement: -128..127, with the sign written before the expression (R378, R379). -/
def AsmEnv.disp (env : AsmEnv) (minus : Bool) (e : AsmExpr) : Except AsmFault Byte := do
  let v ← env.value e
  let d := if minus then -v else v
  if -128 ≤ d ∧ d ≤ 127 then .ok (BitVec.ofInt 8 d) else .error .noMatch

/-- A bit number: 0..7 (R379). -/
def AsmEnv.bitNumber (env : AsmEnv) (e : AsmExpr) : Except AsmFault (Fin 8) :=
  (env.within 0 7 e).map fun v => fin8 v.toNat

/-- An `RST` operand: one of the eight targets (R379). -/
def AsmEnv.rstTarget (env : AsmEnv) (e : AsmExpr) : Except AsmFault (Fin 8) := do
  let v ← env.within 0 0x38 e
  if v.toNat % 8 = 0 then .ok (fin8 (v.toNat / 8)) else .error .noMatch

/-- The offset byte of JR and DJNZ (R389): no range check in tolerant mode. -/
def AsmEnv.offset (env : AsmEnv) (e : AsmExpr) : Except AsmFault Byte := do
  let target ← env.value e
  let offset := target - ((env.addr : Int) + 2)
  if env.strict = true ∧ (offset < -128 ∨ 127 < offset) then .error (.outOfRangeRelative offset)
  else .ok (BitVec.ofInt 8 offset)

/-- The target operand of `JR` and `DJNZ` without a condition: an immediate, and the label `L`, which R419 (`DJNZ L`) and
vectors AS-07 and AS-08 (`JR L`) jump to (log entry 11). -/
def relTargetOf : AsmOperand → Option AsmExpr
  | .immediate e => some e
  | .reg8 (.plain .l) => some { negated := false, first := .ident "L", second := none }
  | _ => none

/-- A place that is a register, `(HL)` or indexed: the `m` of R408, the `s` of R406. -/
inductive AsmPlace where
  | reg (r : Reg8)
  | hl
  | idx (x : Idx) (minus : Bool) (e : AsmExpr)
  deriving DecidableEq, Repr

/-- `(IX)` and `(IY)` mean displacement 0 (R378). -/
def zeroExpr : AsmExpr := { negated := false, first := .num 0, second := none }

def placeOf : AsmOperand → Option AsmPlace
  | .reg8 (.plain r) => some (.reg r)
  | .indirectReg .hl => some .hl
  | .indirectReg (.idx x) => some (.idx x false zeroExpr)
  | .indexed x minus e => some (.idx x minus e)
  | _ => none

/-- The instruction on a place from its three forms. -/
def AsmEnv.onPlace (env : AsmEnv) (p : AsmPlace) (onReg : Reg8 → Instr) (onHl : Instr) (onIdx : Idx → Byte → Instr) :
    Except AsmFault Instr :=
  match p with
  | .reg r => .ok (onReg r)
  | .hl => .ok onHl
  | .idx x minus e => (env.disp minus e).map (onIdx x)

/-! ## LD (R404) -/

/-- `LD` to or from a place. -/
def AsmEnv.ldPlace (env : AsmEnv) (dst src : AsmOperand) : Except AsmFault Instr :=
  match placeOf dst, placeOf src, src with
  | some (.reg r), some p, _ => env.onPlace p (.ldRR r) (.ldRIndHl r) (.ldRIdx r)
  | some .hl, some (.reg r), _ => .ok (.ldIndHlR r)
  | some (.idx x minus e), some (.reg r), _ => (env.disp minus e).map (.ldIdxR x · r)
  | some (.reg r), none, .immediate e => (env.byte e).map (.ldRN r)
  | some .hl, none, .immediate e => (env.byte e).map .ldIndHlN
  | some (.idx x minus e), none, .immediate n => do
    let d ← env.disp minus e
    let n ← env.byte n
    .ok (.ldIdxN x d n)
  | _, _, _ => .error .noMatch

/-- `LD` (R404): the other forms first, then those on places. -/
def AsmEnv.ld (env : AsmEnv) (dst src : AsmOperand) : Except AsmFault Instr :=
  match dst, src with
  | .reg8 (.plain .a), .indirectReg .bc => .ok .ldAIndBc
  | .reg8 (.plain .a), .indirectReg .de => .ok .ldAIndDe
  | .reg8 (.plain .a), .indirect e => (env.word e).map .ldAMem
  | .indirectReg .bc, .reg8 (.plain .a) => .ok .ldIndBcA
  | .indirectReg .de, .reg8 (.plain .a) => .ok .ldIndDeA
  | .indirect e, .reg8 (.plain .a) => (env.word e).map .ldMemA
  | .reg8 .i, .reg8 (.plain .a) => .ok .ldIA
  | .reg8 .r, .reg8 (.plain .a) => .ok .ldRA
  | .reg8 (.plain .a), .reg8 .i => .ok .ldAI
  | .reg8 (.plain .a), .reg8 .r => .ok .ldAR
  | .reg16 (.rp rp), .immediate e => (env.word e).map (.ldRpNn rp)
  | .reg16 (.idx x), .immediate e => (env.word e).map (.ldXyNn x)
  | .reg16 (.rp .hl), .indirect e => (env.word e).map .ldHlMem
  | .reg16 (.rp rp), .indirect e => (env.word e).map (.ldRpMem rp)
  | .reg16 (.idx x), .indirect e => (env.word e).map (.ldXyMem x)
  | .indirect e, .reg16 (.rp .hl) => (env.word e).map .ldMemHl
  | .indirect e, .reg16 (.rp rp) => (env.word e).map (.ldMemRp · rp)
  | .indirect e, .reg16 (.idx x) => (env.word e).map (.ldMemXy x)
  | .reg16 (.rp .sp), .reg16 (.rp .hl) => .ok .ldSpHl
  | .reg16 (.rp .sp), .reg16 (.idx x) => .ok (.ldSpXy x)
  | dst, src => env.ldPlace dst src

/-! ## 8-bit and 16-bit arithmetic (R406, R407) -/

/-- `op [A,] s`: `y` is the operation's code (R104). -/
def AsmEnv.accumulator (env : AsmEnv) (y : Nat) (src : AsmOperand) : Except AsmFault Instr :=
  match placeOf src, src with
  | some p, _ => env.onPlace p (aluR y) (aluIndHl y) (aluIdx y)
  | none, .immediate e => (env.byte e).map (aluN y)
  | none, _ => .error .noMatch

/-- The pair of `ADD IX,pp`: BC, DE, SP or the index register itself (R407). -/
def pairForIndex (x : Idx) : AsmOperand → Option RpX
  | .reg16 (.rp .bc) => some .bc
  | .reg16 (.rp .de) => some .de
  | .reg16 (.rp .sp) => some .sp
  | .reg16 (.idx x') => if x' = x then some .xy else none
  | _ => none

/-- `ADD`, `ADC`, `SBC` with a pair as destination; `none` where the operands are no such form. -/
def pairArithmetic (mnemonic : String) (dst src : AsmOperand) : Option Instr :=
  match mnemonic, dst, src with
  | "ADD", .reg16 (.rp .hl), .reg16 (.rp rp) => some (.addHlRp rp)
  | "ADC", .reg16 (.rp .hl), .reg16 (.rp rp) => some (.adcHlRp rp)
  | "SBC", .reg16 (.rp .hl), .reg16 (.rp rp) => some (.sbcHlRp rp)
  | "ADD", .reg16 (.idx x), src => (pairForIndex x src).map (.addXyRp x)
  | _, _, _ => none

/-- The operation code of an accumulator mnemonic (R104, R406). -/
def aluCode : String → Option Nat
  | "ADD" => some 0 | "ADC" => some 1 | "SUB" => some 2 | "SBC" => some 3
  | "AND" => some 4 | "XOR" => some 5 | "OR" => some 6 | "CP" => some 7
  | _ => none

/-- An accumulator mnemonic, or the 16-bit forms of the same names. -/
def AsmEnv.arithmetic (env : AsmEnv) (mnemonic : String) (y : Nat) : List AsmOperand → Except AsmFault Instr
  | [s] => env.accumulator y s
  | [dst, s] =>
    match pairArithmetic mnemonic dst s, dst with
    | some i, _ => .ok i
    | none, .reg8 (.plain .a) => env.accumulator y s
    | none, _ => .error .noMatch
  | _ => .error .noMatch

/-- `INC` and `DEC` (R406, R407), from their forms. -/
def AsmEnv.incDec (env : AsmEnv) (onReg : Reg8 → Instr) (onHl : Instr) (onIdx : Idx → Byte → Instr) (onRp : Rp → Instr)
    (onXy : Idx → Instr) : List AsmOperand → Except AsmFault Instr
  | [.reg16 (.rp rp)] => .ok (onRp rp)
  | [.reg16 (.idx x)] => .ok (onXy x)
  | [o] =>
    match placeOf o with
    | some p => env.onPlace p onReg onHl onIdx
    | none => .error .noMatch
  | _ => .error .noMatch

/-! ## Rotates, shifts, bits (R408) -/

/-- The code of a rotate or shift mnemonic (R105, R408). -/
def rotCode : String → Option Nat
  | "RLC" => some 0 | "RRC" => some 1 | "RL" => some 2 | "RR" => some 3
  | "SLA" => some 4 | "SRA" => some 5 | "SRL" => some 7
  | _ => none

def AsmEnv.rotShift (env : AsmEnv) (y : Nat) : List AsmOperand → Except AsmFault Instr
  | [o] =>
    match placeOf o with
    | some p => env.onPlace p (rotR y · 0) (rotIndHl y) (rotIdx y)
    | none => .error .noMatch
  | _ => .error .noMatch

/-- `BIT`, `RES`, `SET`, from their forms. -/
def AsmEnv.bitOp (env : AsmEnv) (onReg : Fin 8 → Reg8 → Instr) (onHl : Fin 8 → Instr) (onIdx : Fin 8 → Idx → Byte → Instr) :
    List AsmOperand → Except AsmFault Instr
  | [.immediate e, o] => do
    let b ← env.bitNumber e
    match placeOf o with
    | some p => env.onPlace p (onReg b) (onHl b) (onIdx b)
    | none => .error .noMatch
  | _ => .error .noMatch

/-! ## Stack, exchange, control flow, I/O (R405, R409, R410) -/

/-- The pair of PUSH and POP (R102). -/
def stackPair : AsmReg16 → Option Rp2
  | .rp .bc => some .bc | .rp .de => some .de | .rp .hl => some .hl | .af => some .af
  | .rp .sp | .idx _ | .afShadow => none

def stackOp (onRp2 : Rp2 → Instr) (onXy : Idx → Instr) : List AsmOperand → Except AsmFault Instr
  | [.reg16 (.idx x)] => .ok (onXy x)
  | [.reg16 p] =>
    match stackPair p with
    | some rp2 => .ok (onRp2 rp2)
    | none => .error .noMatch
  | _ => .error .noMatch

def exchange : List AsmOperand → Except AsmFault Instr
  | [.reg16 (.rp .de), .reg16 (.rp .hl)] => .ok .exDeHl
  | [.reg16 .af, .reg16 .afShadow] => .ok .exAfAf
  | [.indirectReg .sp, .reg16 (.rp .hl)] => .ok .exIndSpHl
  | [.indirectReg .sp, .reg16 (.idx x)] => .ok (.exIndSpXy x)
  | _ => .error .noMatch

/-- The word of a jump or call target operand. -/
def AsmEnv.target (env : AsmEnv) : AsmOperand → Except AsmFault Word
  | .immediate e => env.word e
  | _ => .error .noMatch

/-- The offset byte of the target operand of `JR` and `DJNZ` without a condition. -/
def AsmEnv.relTarget (env : AsmEnv) (o : AsmOperand) : Except AsmFault Byte :=
  match relTargetOf o with
  | some e => env.offset e
  | none => .error .noMatch

def AsmEnv.jump (env : AsmEnv) : List AsmOperand → Except AsmFault Instr
  | [.indirectReg .hl] => .ok .jpHl
  | [.indirectReg (.idx x)] => .ok (.jpXy x)
  | [.cond cc, o] => (env.target o).map (.jpCcNn cc)
  | [o] => (env.target o).map .jpNn
  | _ => .error .noMatch

/-- The conditions of `JR` (R285, R409). -/
def jrCondOf : Cond → Option CondJr
  | .nz => some .nz | .z => some .z | .nc => some .nc | .c => some .c
  | .po | .pe | .p | .m => none

def AsmEnv.relJump (env : AsmEnv) : List AsmOperand → Except AsmFault Instr
  | [.cond cc, .immediate e] =>
    match jrCondOf cc with
    | some cj => (env.offset e).map (.jrCc cj)
    | none => .error .noMatch
  | [o] => (env.relTarget o).map .jr
  | _ => .error .noMatch

def AsmEnv.callOp (env : AsmEnv) : List AsmOperand → Except AsmFault Instr
  | [.cond cc, o] => (env.target o).map (.callCcNn cc)
  | [o] => (env.target o).map .callNn
  | _ => .error .noMatch

def AsmEnv.input (env : AsmEnv) : List AsmOperand → Except AsmFault Instr
  | [.reg8 (.plain .a), .indirect e] => (env.byte e).map .inAN
  | [.reg8 (.plain r), .indirectReg .c] => .ok (.inRC r)
  | _ => .error .noMatch

def AsmEnv.output (env : AsmEnv) : List AsmOperand → Except AsmFault Instr
  | [.indirect e, .reg8 (.plain .a)] => (env.byte e).map .outNA
  | [.indirectReg .c, .reg8 (.plain r)] => .ok (.outCR r)
  | _ => .error .noMatch

def AsmEnv.intMode (env : AsmEnv) : List AsmOperand → Except AsmFault Instr
  | [.immediate e] => do
    let v ← env.within 0 2 e
    .ok (if v = 0 then .im0 else if v = 1 then .im1 else .im2)
  | _ => .error .noMatch

/-- The mnemonics without operands (R405, R406, R408 to R410). -/
def plainInstr : String → Option Instr
  | "EXX" => some .exx | "DAA" => some .daa | "CPL" => some .cpl | "SCF" => some .scf | "CCF" => some .ccf
  | "NEG" => some .neg | "RLCA" => some .rlca | "RRCA" => some .rrca | "RLA" => some .rla | "RRA" => some .rra
  | "RRD" => some .rrd | "RLD" => some .rld | "RET" => some .ret | "RETI" => some .reti | "RETN" => some .retn
  | "LDI" => some .ldi | "LDD" => some .ldd | "LDIR" => some .ldir | "LDDR" => some .lddr
  | "CPI" => some .cpi | "CPD" => some .cpd | "CPIR" => some .cpir | "CPDR" => some .cpdr
  | "INI" => some .ini | "IND" => some .ind | "INIR" => some .inir | "INDR" => some .indr
  | "OUTI" => some .outi | "OUTD" => some .outd | "OTIR" => some .otir | "OTDR" => some .otdr
  | "NOP" => some .nop | "HALT" => some .halt | "EI" => some .ei | "DI" => some .di
  | _ => none

/-- The instruction of a mnemonic with operands. -/
def AsmEnv.selectWith (env : AsmEnv) (mnemonic : String) (ops : List AsmOperand) : Except AsmFault Instr :=
  match aluCode mnemonic, rotCode mnemonic with
  | some y, _ => env.arithmetic mnemonic y ops
  | none, some y => env.rotShift y ops
  | none, none =>
    match mnemonic, ops with
    | "LD", [dst, src] => env.ld dst src
    | "PUSH", ops => stackOp .pushRp2 .pushXy ops
    | "POP", ops => stackOp .popRp2 .popXy ops
    | "EX", ops => exchange ops
    | "INC", ops => env.incDec .incR .incIndHl .incIdx .incRp .incXy ops
    | "DEC", ops => env.incDec .decR .decIndHl .decIdx .decRp .decXy ops
    | "BIT", ops => env.bitOp .bitR .bitIndHl .bitIdx ops
    | "RES", ops => env.bitOp .resR .resIndHl .resIdx ops
    | "SET", ops => env.bitOp .setR .setIndHl .setIdx ops
    | "JP", ops => env.jump ops
    | "JR", ops => env.relJump ops
    | "DJNZ", [o] => (env.relTarget o).map .djnz
    | "CALL", ops => env.callOp ops
    | "RET", [.cond cc] => .ok (.retCc cc)
    | "RST", [.immediate e] => (env.rstTarget e).map .rst
    | "IN", ops => env.input ops
    | "OUT", ops => env.output ops
    | "IM", ops => env.intMode ops
    | _, _ => .error .noMatch

/-- The instruction that a statement names (R404 to R411). -/
def AsmEnv.select (env : AsmEnv) (mnemonic : String) (ops : List AsmOperand) : Except AsmFault Instr :=
  match plainInstr mnemonic, ops with
  | some i, [] => .ok i
  | _, ops => env.selectWith mnemonic ops

end Sys2Proof.Machine
end

