-- ==== Sys2Proof/Machine/Assembler.lean ====
section
/-! DEFINITION. The two passes of the assembler and its four outputs (49_assembler.md R370 to R403): a pure function from text,
with no access to the CPU's state (R372). -/

namespace Sys2Proof.Machine

/-! ## One statement -/

/-- The error that a refusal of a statement's operands becomes (R412). -/
def AsmFault.kind (f : AsmFault) (mnemonic : String) (s : AsmStatement) : AsmErrorKind :=
  match f with
  | .noMatch => .invalidOperands mnemonic (s.operands.map String.ofList)
  | .badNumber t => .badNumber t
  | .undefinedLabel n => .undefinedLabel n
  | .outOfRangeRelative o => .outOfRangeRelative o

/-- What a statement does once its operands are read. -/
inductive AsmAction where
  | nothing
  | org (e : AsmExpr)
  | equ (e : AsmExpr)
  | space (e : AsmExpr)
  | bytes (items : List AsmExpr)
  | words (items : List AsmExpr)
  | instr (mnemonic : String) (ops : List AsmOperand)
  deriving DecidableEq, Repr

/-- The expressions of a directive's operands. -/
def exprTexts : List (List Char) → Except AsmFault (List AsmExpr)
  | [] => .ok []
  | t :: ts => do
    let e ← exprText t
    let es ← exprTexts ts
    .ok (e :: es)

/-- A directive with exactly one operand. -/
def oneExpr (f : AsmExpr → AsmAction) (es : List AsmExpr) : Except AsmFault AsmAction :=
  match es with
  | [e] => .ok (f e)
  | _ => .error .noMatch

/-- A directive with at least one item (R382). -/
def someExprs (f : List AsmExpr → AsmAction) (es : List AsmExpr) : Except AsmFault AsmAction :=
  if es = [] then .error .noMatch else .ok (f es)

/-- The action of a mnemonic or directive with its operand texts. -/
def actionOf (mnemonic : String) (operands : List (List Char)) : Except AsmFault AsmAction := do
  if ["ORG", "EQU", "DS", "DB", "DW"].contains mnemonic then
    let es ← exprTexts operands
    if mnemonic = "ORG" then oneExpr .org es
    else if mnemonic = "EQU" then oneExpr .equ es
    else if mnemonic = "DS" then oneExpr .space es
    else if mnemonic = "DB" then someExprs .bytes es
    else someExprs .words es
  else
    let ops ← classifyOperands mnemonic operands
    .ok (.instr mnemonic ops)

/-- The action of a statement: none where it is empty or only a label (R373). -/
def AsmStatement.action (s : AsmStatement) : Except AsmFault AsmAction :=
  match s.mnemonic with
  | none => .ok .nothing
  | some m => actionOf m s.operands

/-- The bytes of `DB` items (R382). -/
def AsmEnv.byteItems (env : AsmEnv) : List AsmExpr → Except AsmFault (List Byte)
  | [] => .ok []
  | e :: es => do
    let b ← env.byte e
    let bs ← env.byteItems es
    .ok (b :: bs)

/-- The bytes of `DW` items: low byte first (R383). -/
def AsmEnv.wordItems (env : AsmEnv) : List AsmExpr → Except AsmFault (List Byte)
  | [] => .ok []
  | e :: es => do
    let w ← env.word e
    let bs ← env.wordItems es
    .ok (lo w :: hi w :: bs)

/-- The bytes a statement emits at `env.addr` (R382 to R384, R404 to R410); `ORG` and `EQU` emit none. -/
def AsmEnv.emitted (env : AsmEnv) : AsmAction → Except AsmFault (List Byte)
  | .nothing | .org _ | .equ _ => .ok []
  | .space e => (e.value env.labels).map fun v => List.replicate v.toNat 0
  | .bytes items => env.byteItems items
  | .words items => env.wordItems items
  | .instr mnemonic ops => (env.select mnemonic ops).map encode

/-! ## Pass 1 (R386, R387) -/

/-- The state of pass 1: the address and the label table. -/
structure AsmPass1 where
  addr : Nat
  labels : AsmLabels
  deriving DecidableEq, Repr

/-- A statement with its start address and its action, as pass 1 hands it on. -/
structure AsmPlaced where
  statement : AsmStatement
  addr : Nat
  action : AsmAction
  deriving DecidableEq, Repr

/-- A name entered in the table (R417), which holds 16-bit values (R371). -/
def AsmPass1.enter (p : AsmPass1) (name : String) (v : Int) : Except AsmErrorKind AsmPass1 :=
  if (p.labels.lookup name).isSome then .error (.duplicateLabel name)
  else .ok { p with labels := p.labels ++ [(name, (v % 65536).toNat)] }

/-- The symbol of an `EQU` (R381); a reserved word is refused (R376). -/
def AsmPass1.defineSymbol (p : AsmPass1) (name : String) (v : Int) : Except AsmErrorKind AsmPass1 :=
  if isReserved name then .error (.invalidOperands name []) else p.enter name v

/-- The label of a statement that is no `EQU`, at the current address (R386); a reserved word is refused (R376), but for
the label `L` of R419 (log entry 11). -/
def AsmPass1.defineLabel (p : AsmPass1) (label : Option String) : Except AsmErrorKind AsmPass1 :=
  match label with
  | none => .ok p
  | some name => if isReserved name ∧ name ≠ "L" then .error (.invalidOperands name []) else p.enter name p.addr

/-- The address moved past `n` bytes; it may reach 0x10000 (R386, R417). -/
def AsmPass1.move (p : AsmPass1) (n : Nat) : Except AsmErrorKind AsmPass1 :=
  if p.addr + n ≤ 65536 then .ok { p with addr := p.addr + n } else .error .addressOverflow

/-- The directive or the size of one statement (R386): its label is entered already, and the operands of ORG, EQU and DS
see only the labels of earlier statements (R385). -/
def AsmPass1.act (p : AsmPass1) (earlier : AsmLabels) (s : AsmStatement) (mnemonic : String) (action : AsmAction) :
    Except AsmErrorKind AsmPass1 :=
  match action with
  | .equ e =>
    match s.label, e.value earlier with
    | none, _ => .error (AsmFault.noMatch.kind mnemonic s)
    | some _, .error f => .error (f.kind mnemonic s)
    | some name, .ok v => p.defineSymbol name v
  | .org e =>
    match e.value earlier with
    | .error f => .error (f.kind mnemonic s)
    | .ok v => if 0 ≤ v ∧ v ≤ 65535 then .ok { p with addr := v.toNat } else .error .addressOverflow
  | .space e =>
    match e.value earlier with
    | .error f => .error (f.kind mnemonic s)
    | .ok v => if v < 0 then .error (AsmFault.noMatch.kind mnemonic s) else p.move v.toNat
  | action =>
    let env : AsmEnv := { strict := false, labels := p.labels, addr := p.addr }
    match env.emitted action with
    | .error f => .error (f.kind mnemonic s)
    | .ok bs => p.move bs.length

/-- One statement of pass 1 (R386): the label first, unless it is the symbol of an `EQU`; then the operands are read;
then the directive or the size (log entry 12). -/
def AsmPass1.statement (p : AsmPass1) (s : AsmStatement) : Except AsmErrorKind (AsmPlaced × AsmPass1) := do
  let mnemonic := s.mnemonic.getD ""
  let q ← if s.mnemonic = some "EQU" then .ok p else p.defineLabel s.label
  match s.action with
  | .error f => .error (f.kind mnemonic s)
  | .ok action => (q.act p.labels s mnemonic action).map fun r => ({ statement := s, addr := p.addr, action := action }, r)

/-- An error with the statement's line (R416). -/
def atLine {α : Type} (line : Nat) : Except AsmErrorKind α → Except AsmError α
  | .ok v => .ok v
  | .error k => .error { line := line, kind := k }

/-- Pass 1 over the statements: the placed statements and the label table; the first error ends it (R370). -/
def pass1 (p : AsmPass1) : List AsmStatement → Except AsmError (List AsmPlaced × AsmLabels)
  | [] => .ok ([], p.labels)
  | s :: ss => do
    let (placed, q) ← atLine s.line (p.statement s)
    let (rest, labels) ← pass1 q ss
    .ok (placed :: rest, labels)

/-! ## Pass 2 (R388, R389) -/

/-- A placed statement with the bytes it emits. -/
structure AsmEmission where
  statement : AsmStatement
  addr : Nat
  bytes : List Byte
  deriving DecidableEq, Repr

/-- Pass 2: every statement's bytes, symbols strict; the first error ends it. -/
def pass2 (labels : AsmLabels) : List AsmPlaced → Except AsmError (List AsmEmission)
  | [] => .ok []
  | p :: ps => do
    let env : AsmEnv := { strict := true, labels := labels, addr := p.addr }
    let bs ← atLine p.statement.line
      (match env.emitted p.action with
        | .ok bs => .ok bs
        | .error f => .error (f.kind (p.statement.mnemonic.getD "") p.statement))
    let rest ← pass2 labels ps
    .ok ({ statement := p.statement, addr := p.addr, bytes := bs } :: rest)

/-- Bytes written to the buffer from `a` on: no wrap (R388, R417). -/
def bufferBytes (buffer : Memory) (a : Nat) : List Byte → Memory
  | [] => buffer
  | b :: bs => bufferBytes (Memory.write buffer a b) (a + 1) bs

/-- The buffer after all emissions, in statement order: the later one wins (R388). -/
def bufferOf (buffer : Memory) : List AsmEmission → Memory
  | [] => buffer
  | e :: es => bufferOf (bufferBytes buffer e.addr e.bytes) es

/-- The high-water mark: one more than the highest address written (R371, R388). -/
def highWater (hwm : Nat) : List AsmEmission → Nat
  | [] => hwm
  | e :: es => highWater (if e.bytes = [] then hwm else max hwm (e.addr + e.bytes.length)) es

/-- The bytes `buffer[a], ..., buffer[a + n - 1]`. -/
def bufferSlice (buffer : Memory) (a : Nat) : Nat → List Byte
  | 0 => []
  | n + 1 => Memory.read buffer a :: bufferSlice buffer (a + 1) n

/-! ## Outputs (R400 to R403) -/

/-- An upper-case hexadecimal digit. -/
def hexDigit (n : Nat) : Char := if n < 10 then Char.ofNat (48 + n) else Char.ofNat (55 + n)

/-- A byte as two hexadecimal digits. -/
def hexByte (b : Byte) : String := String.ofList [hexDigit (b.toNat / 16), hexDigit (b.toNat % 16)]

/-- A 16-bit address as four hexadecimal digits. -/
def hexWord (a : Word) : String := hexByte (hi a) ++ hexByte (lo a)

/-- One row of the listing (R403). A statement at 0x10000, a label after the last byte, is listed as 0000 (DESIGN CHOICE:
R403 gives four digits and is silent there; log entry 14). -/
def listingRow (e : AsmEmission) : String :=
  hexWord (BitVec.ofNat 16 e.addr) ++ " | " ++ String.intercalate " " (e.bytes.map hexByte) ++ " | " ++
    toString e.statement.line ++ " | " ++ String.ofList e.statement.text

/-- A statement that has a label, a directive or an instruction (R403). -/
def AsmEmission.listed (e : AsmEmission) : Bool := e.statement.label.isSome || e.statement.mnemonic.isSome

/-- What `assemble` gives on success (R370). -/
structure AsmOutput where
  /-- R400: the buffer up to the high-water mark -/
  image : List Byte
  /-- R402: (line, start address) of every statement that emits at least one byte, in statement order -/
  lineMap : List (Nat × Word)
  /-- R401: names upper-cased, in the order of definition -/
  labels : List (String × Word)
  /-- R403 -/
  listing : String
  deriving DecidableEq, Repr

/-- The outputs from the label table and the emissions. -/
def AsmOutput.ofEmissions (labels : AsmLabels) (es : List AsmEmission) : AsmOutput where
  image := bufferSlice (bufferOf [] es) 0 (highWater 0 es)
  lineMap := (es.filter fun e => e.bytes != []).map fun e => (e.statement.line, BitVec.ofNat 16 e.addr)
  labels := labels.map fun (n, v) => (n, BitVec.ofNat 16 v)
  listing := String.intercalate "\n" ((es.filter AsmEmission.listed).map listingRow)

/-- Both passes: the label table and every statement's bytes. -/
def assembleParts (source : String) : Except AsmError (AsmLabels × List AsmEmission) := do
  let (placed, labels) ← pass1 { addr := 0, labels := [] } (readSource source)
  let es ← pass2 labels placed
  .ok (labels, es)

/-- `assemble(source)` (R370). -/
def assemble (source : String) : Except AsmError AsmOutput := do
  let (labels, es) ← assembleParts source
  .ok (AsmOutput.ofEmissions labels es)

/-- `line_of(pc)`: the line of the last pair with that address (R402, C14). -/
def lineOf (lineMap : List (Nat × Word)) (pc : Word) : Option Nat :=
  match lineMap with
  | [] => none
  | (l, a) :: rest =>
    match lineOf rest pc with
    | some l' => some l'
    | none => if a = pc then some l else none

end Sys2Proof.Machine
end

