-- ==== Sys2Proof/Machine/Embedder.lean ====
section
/-! DEFINITION. What the outside world does to the machine between steps (00_scope.md R4): the two resets, `load`, the
interrupt request, the registration of port handlers, and a run as a list of such calls (R10, 70_reset_and_hazards.md
R475). None of these is an instruction. -/

namespace Sys2Proof.Machine

/-- `reset()` of the CPU (R470): every register as in R45, the latches clear. Memory and the port tables are left
alone (R471), and with them the peripherals' state and the model's own history and input script (log entries 2, 3). -/
def State.cpuReset (s : State) : State :=
  { State.reset with
    mem := s.mem, cfg := s.cfg, events := s.events, peripheral := s.peripheral, replies := s.replies }

/-- The memory reset: the whole array is 0 (R65). -/
def State.memReset (s : State) : State := { s with mem := [] }

/-- `load(base, bytes)`: each byte in turn, addresses wrapping (R63). -/
def State.load (s : State) (base : Word) (bytes : List Byte) : State := s.storeBytes base bytes

/-- The table with one more registration; it replaces an earlier one for the same port (R73, D23). -/
def registered (table : List (Byte × Nat)) (p : Byte) (fn : Nat) : List (Byte × Nat) :=
  (p, fn) :: table.filter fun entry => entry.1 != p

/-- `register_in(p, fn)` (R73). -/
def State.registerIn (s : State) (p : Byte) (fn : Nat) : State :=
  { s with cfg := { s.cfg with inPorts := registered s.cfg.inPorts p fn } }

/-- `register_out(p, fn)` (R73). -/
def State.registerOut (s : State) (p : Byte) (fn : Nat) : State :=
  { s with cfg := { s.cfg with outPorts := registered s.cfg.outPorts p fn } }

/-- One call of the embedder. -/
inductive EmbedderCall where
  | step
  | interrupt
  | reset
  | memReset
  | load (base : Word) (bytes : List Byte)
  | registerIn (port : Byte) (fn : Nat)
  | registerOut (port : Byte) (fn : Nat)
  deriving DecidableEq, Repr

/-- The state an outcome leaves (R15): a fault leaves one too; a hang (R115) and a refusal leave none. -/
def stateAfter : Result → Option State
  | .next t => some t
  | .fault (.stackOutOfRange t) => some t
  | .fault (.unknownOpcode _ _ t) => some t
  | .fault .prefixRun => none
  | .refused _ => none

/-- The state after one call. -/
def State.afterCall (s : State) : EmbedderCall → Option State
  | .step => stateAfter (step s)
  | .interrupt => some s.interrupt
  | .reset => some s.cpuReset
  | .memReset => some s.memReset
  | .load base bytes => some (s.load base bytes)
  | .registerIn p fn => some (s.registerIn p fn)
  | .registerOut p fn => some (s.registerOut p fn)

/-- The state after a list of calls in order; `none` once a step hangs. The places of the `interrupt` calls are the
interrupt request schedule of R10. -/
def State.session (s : State) : List EmbedderCall → Option State
  | [] => some s
  | c :: rest =>
    match s.afterCall c with
    | some t => t.session rest
    | none => none

end Sys2Proof.Machine
end

