-- ==== Sys2Proof/Safety.lean ====
section
/-! DEFINITION. The terms claims are stated in: the parts of the state and what it means that an instruction changes only
some of them, the invariant of the machine, and a safe run. -/

namespace Sys2Proof.Machine

/-! ## Parts of the state -/

/-- Every part of the state that a program or the embedder can see, each by itself: the flags one by one, the halves of
the index registers one by one, memory byte by byte. -/
inductive Part where
  /-- B, C, D, E, H, L, A -/
  | reg (r : Reg8)
  | flag (fl : Flag)
  /-- B', C', D', E', H', L', A' -/
  | shadowReg (r : Reg8)
  | shadowF
  | half (x : Idx) (hf : Half)
  | sp
  | pc
  | regI
  | regR
  | iff1
  | iff2
  | im
  | halted
  | pending
  | fault
  /-- the transient prefix tag and page -/
  | tags
  | config
  | events
  /-- the peripherals' state and the script of their replies -/
  | peripherals
  | byte (a : Word)
  deriving DecidableEq, Repr

/-- The part reads the same in both states. -/
def Same (s t : State) : Part → Prop
  | .reg r => t.reg r = s.reg r
  | .flag fl => t.flag fl = s.flag fl
  | .shadowReg r => t.shadow.get r = s.shadow.get r
  | .shadowF => t.shadow.f = s.shadow.f
  | .half x hf => t.half x hf = s.half x hf
  | .sp => t.sp = s.sp
  | .pc => t.pc = s.pc
  | .regI => t.regI = s.regI
  | .regR => t.regR = s.regR
  | .iff1 => t.iff1 = s.iff1
  | .iff2 => t.iff2 = s.iff2
  | .im => t.im = s.im
  | .halted => t.halted = s.halted
  | .pending => t.pending = s.pending
  | .fault => t.fault = s.fault
  | .tags => t.prefixTag = s.prefixTag ∧ t.page = s.page
  | .config => t.cfg = s.cfg
  | .events => t.events = s.events
  | .peripherals => t.peripheral = s.peripheral ∧ t.replies = s.replies
  | .byte a => t.readByte a = s.readByte a

/-- The frame: from `s` to `t` every part outside the list reads as before, every byte of memory among them. -/
def OnlyChanges (parts : List Part) (s t : State) : Prop := ∀ p, p ∉ parts → Same s t p

/-- The flags but Y and X. -/
def namedFlags : List Part := [.flag .s, .flag .z, .flag .h, .flag .pv, .flag .n, .flag .c]

/-- All eight flags. -/
def allFlags : List Part := [.flag .y, .flag .x] ++ namedFlags

/-- The parts of a pair (R21, R101). -/
def pairParts : Rp → List Part
  | .bc => [.reg .b, .reg .c]
  | .de => [.reg .d, .reg .e]
  | .hl => [.reg .h, .reg .l]
  | .sp => [.sp]

/-- The parts of a pair of PUSH and POP (R102). -/
def stackPairParts : Rp2 → List Part
  | .bc => [.reg .b, .reg .c]
  | .de => [.reg .d, .reg .e]
  | .hl => [.reg .h, .reg .l]
  | .af => .reg .a :: allFlags

/-- The two halves of an index register. -/
def indexParts (x : Idx) : List Part := [.half x .high, .half x .low]

/-- From every state the instruction answers a next state that meets `post` and changes only the parts named. -/
def Does (i : Instr) (changed : State → List Part) (post : State → State → Prop) : Prop :=
  ∀ s, ∃ t, exec i s = .next t ∧ post s t ∧ OnlyChanges (changed s) s t

/-- From every state that meets `pre`, the same. -/
def DoesWhen (pre : State → Prop) (i : Instr) (changed : State → List Part) (post : State → State → Prop) : Prop :=
  ∀ s, pre s → ∃ t, exec i s = .next t ∧ post s t ∧ OnlyChanges (changed s) s t

/-- The step ends in a stack fault that leaves a state, halted with the fault latched (R431), which meets `post` and
changes only `halted`, the latch and the parts named. -/
def StackFaultsWhen (pre : State → Prop) (i : Instr) (changed : State → List Part) (post : State → State → Prop) : Prop :=
  ∀ s, pre s → ∃ t, exec i s = .fault (.stackOutOfRange t) ∧ t.halted = true ∧ t.fault = some .stackOutOfRange ∧
    post s t ∧ OnlyChanges ([.halted, .fault] ++ changed s) s t

/-! ## The invariant -/

/-- What holds between steps of a machine that has not faulted (10_state.md R39, R46; 60_exceptions.md R439;
90_conflicts.md C6). -/
structure Inv (s : State) : Prop where
  /-- memory is in its canonical form -/
  memory : Memory.wf s.mem = true
  /-- `prefix = None` between steps (R46) -/
  tag : s.prefixTag = .none
  page : s.page = .main
  /-- no fault is latched -/
  fault : s.fault = none
  /-- interrupts are enabled only while iff2 is set (R35) -/
  enables : s.iff1 = true → s.iff2 = true
  /-- the state halted, pending and iff1 is not reachable (C6) -/
  awake : ¬(s.halted = true ∧ s.pending = true ∧ s.iff1 = true)

/-! ## Safe runs -/

/-- The step does not fault. -/
def StepSafe (s : State) : Prop := ∃ t, step s = .next t

/-- `n` steps without a fault, each from the state the one before left. -/
def RunSafe : Nat → State → Prop
  | 0, _ => True
  | n + 1, s => ∃ t, step s = .next t ∧ RunSafe n t

end Sys2Proof.Machine
end

