-- ==== Sys2Proof/Certificates/Slice0/Obligations.lean ====
section
/-! DEFINITION. The statements for the provers. The first part holds the words they are written in: results in plain
arithmetic on naturals and integers, not in the model's own flag functions. -/

namespace Sys2Proof.Machine

/-! ## Words of the statements -/

/-- S is bit 7 of the byte, Z says that it is 0 (10_state.md R27). -/
def SignZero (t : State) (v : Byte) : Prop := (t.flag .s = true ↔ 128 ≤ v.toNat) ∧ (t.flag .z = true ↔ v.toNat = 0)

/-- P/V says that the byte has an even number of 1 bits. -/
def EvenParity (t : State) (v : Byte) : Prop :=
  t.flag .pv = true ↔ ((List.range 8).countP fun i => v.getLsbD i) % 2 = 0

def HalfAndSubtractClear (t : State) : Prop := t.flag .h = false ∧ t.flag .n = false

/-- A and every flag after the addition of `v s` and a carry `cin s` to A (42_alu8.md R191). -/
def AddResult (v : State → Byte) (cin : State → Nat) (s t : State) : Prop :=
  let a := s.main.a
  let sum := a.toInt + (v s).toInt + (cin s : Int)
  t.main.a.toNat = (a.toNat + (v s).toNat + cin s) % 256 ∧ SignZero t t.main.a ∧
  (t.flag .c = true ↔ 255 < a.toNat + (v s).toNat + cin s) ∧
  (t.flag .h = true ↔ 15 < a.toNat % 16 + (v s).toNat % 16 + cin s) ∧
  (t.flag .pv = true ↔ sum < -128 ∨ 127 < sum) ∧
  t.flag .n = false ∧ t.flag .y = false ∧ t.flag .x = false

/-- The flags, and the value they are about, of the subtraction of `v s` and a borrow `cin s` from `a s` (R191). -/
def SubResult (a v : State → Byte) (cin : State → Nat) (res : State → Byte) (s t : State) : Prop :=
  let diff := (a s).toInt - (v s).toInt - (cin s : Int)
  ((res t).toNat : Int) = (((a s).toNat : Int) - (v s).toNat - cin s) % 256 ∧
  SignZero t (res t) ∧
  (t.flag .c = true ↔ (a s).toNat < (v s).toNat + cin s) ∧
  (t.flag .h = true ↔ (a s).toNat % 16 < (v s).toNat % 16 + cin s) ∧
  (t.flag .pv = true ↔ diff < -128 ∨ 127 < diff) ∧
  t.flag .n = true ∧ t.flag .y = false ∧ t.flag .x = false

/-- The flags of a comparison of A with `v s` (R199): those of the subtraction, whose value goes nowhere. -/
def CompareResult (v : State → Byte) (s t : State) : Prop :=
  let a := s.main.a
  let diff := a.toInt - (v s).toInt
  (t.flag .s = true ↔ 128 ≤ ((a.toNat : Int) - (v s).toNat) % 256) ∧ (t.flag .z = true ↔ a.toNat = (v s).toNat) ∧
  (t.flag .c = true ↔ a.toNat < (v s).toNat) ∧ (t.flag .h = true ↔ a.toNat % 16 < (v s).toNat % 16) ∧
  (t.flag .pv = true ↔ diff < -128 ∨ 127 < diff) ∧ t.flag .n = true ∧ t.flag .y = false ∧ t.flag .x = false

/-- A and every flag after a bitwise operation of A with `v s`, given bit by bit (R191, R196 to R198). -/
def LogicResult (bit : Bool → Bool → Bool) (v : State → Byte) (s t : State) : Prop :=
  (∀ k < 8, t.main.a.getLsbD k = bit (s.main.a.getLsbD k) ((v s).getLsbD k)) ∧ SignZero t t.main.a ∧
  EvenParity t t.main.a ∧ HalfAndSubtractClear t ∧ t.flag .c = false ∧ t.flag .y = false ∧ t.flag .x = false

/-- One claim for each of the five operand forms of an accumulator operation (R190), with the operand's value. -/
def AccumulatorForms (onReg : Reg8 → Instr) (onHl : Instr) (onN : Byte → Instr) (onIdx : Idx → Byte → Instr)
    (onHalf : Idx → Half → Instr) (claim : Instr → (State → Byte) → Prop) : Prop :=
  (∀ r, claim (onReg r) fun s => s.reg r) ∧ claim onHl (fun s => s.readByte s.main.hl) ∧
  (∀ n, claim (onN n) fun _ => n) ∧ (∀ x d, claim (onIdx x d) fun s => s.readByte (s.indexed x d)) ∧
  (∀ x hf, claim (onHalf x hf) fun s => s.half x hf)

/-- The flags that INC and DEC of a byte write. -/
def incFlags : List Part := [.flag .s, .flag .z, .flag .h, .flag .pv, .flag .n]

/-- A byte counted up, and the flags (R200). -/
def IncResult (old new : Byte) (t : State) : Prop :=
  new.toNat = (old.toNat + 1) % 256 ∧ SignZero t new ∧ (t.flag .h = true ↔ old.toNat % 16 = 15) ∧
  (t.flag .pv = true ↔ old.toInt = 127) ∧ t.flag .n = false

/-- A byte counted down, and the flags (R202). -/
def DecResult (old new : Byte) (t : State) : Prop :=
  new.toNat = (old.toNat + 255) % 256 ∧ SignZero t new ∧ (t.flag .h = true ↔ old.toNat % 16 = 0) ∧
  (t.flag .pv = true ↔ old.toInt = -128) ∧ t.flag .n = true

/-- The part that a register operand under an index prefix names (R96 item 2). -/
def regXPart (x : Idx) : RegX → Part
  | .b => .reg .b | .c => .reg .c | .d => .reg .d | .e => .reg .e | .a => .reg .a
  | .xyh => .half x .high | .xyl => .half x .low

/-- The condition of a conditional instruction, in the flags (30_encoding.md R103). -/
def CondTrue (s : State) : Cond → Prop
  | .nz => s.flag .z = false
  | .z => s.flag .z = true
  | .nc => s.flag .c = false
  | .c => s.flag .c = true
  | .po => s.flag .pv = false
  | .pe => s.flag .pv = true
  | .p => s.flag .s = false
  | .m => s.flag .s = true

/-- The condition of `JR cc` as one of the eight (R285). -/
def jrCond : CondJr → Cond
  | .nz => .nz | .z => .z | .nc => .nc | .c => .c

/-- PC moved by a signed byte, modulo 65536 (R284). -/
def MovesPc (e : Byte) (s t : State) : Prop := (t.pc.toNat : Int) = ((s.pc.toNat : Int) + e.toInt) % 65536

/-- A push has room: SP is at least 2 (60_exceptions.md R432). -/
abbrev RoomToPush (s : State) : Prop := 2 ≤ s.sp.toNat

/-- A pop has room: SP is at most 0xFFFD (R433). -/
abbrev RoomToPop (s : State) : Prop := s.sp.toNat ≤ 0xFFFD

/-- The word `v` pushed: the high byte at SP - 1, the low byte at SP - 2 (R432). -/
def Pushes (v : Word) (s t : State) : Prop :=
  t.sp = s.sp - 2 ∧ t.readByte (s.sp - 1) = hi v ∧ t.readByte (s.sp - 2) = lo v

/-- What a push changes. -/
def pushParts (s : State) : List Part := [.sp, .byte (s.sp - 1), .byte (s.sp - 2)]

/-- The word that a pop reads: low byte at SP, high byte above it (R433). -/
def topWord (s : State) : Word := pair (s.readByte (s.sp + 1)) (s.readByte s.sp)

/-- A push of `v` faults at SP = 0 with nothing written, and at SP = 1 with the high byte written at address 0 (R432);
nothing after the push is done (R431). -/
def PushFaultsWhen (pre : State → Prop) (i : Instr) (v : State → Word) : Prop :=
  StackFaultsWhen (fun s => pre s ∧ s.sp = 0) i (fun _ => []) (fun _ _ => True) ∧
  StackFaultsWhen (fun s => pre s ∧ s.sp = 1) i (fun _ => [.sp, .byte 0])
    (fun s t => t.sp = 0 ∧ t.readByte 0 = hi (v s))

/-- A pop faults at SP = 0xFFFF, and at SP = 0xFFFE with SP moved to 0xFFFF (R433); nothing after it is done. -/
def PopFaultsWhen (pre : State → Prop) (i : Instr) : Prop :=
  StackFaultsWhen (fun s => pre s ∧ s.sp = 0xFFFF) i (fun _ => []) (fun _ _ => True) ∧
  StackFaultsWhen (fun s => pre s ∧ s.sp = 0xFFFE) i (fun _ => [.sp]) (fun _ t => t.sp = 0xFFFF)

/-- The value that a rotate or shift gives, on numbers (44_rotate_shift_bit.md R251 to R257). -/
def rotatedValue (op : RotOp) (v cin : Nat) : Nat :=
  match op with
  | .rlc => 2 * v % 256 + v / 128
  | .rrc => v / 2 + 128 * (v % 2)
  | .rl => 2 * v % 256 + cin
  | .rr => v / 2 + 128 * cin
  | .sla => 2 * v % 256
  | .sra => v / 2 + 128 * (v / 128)
  | .srl => v / 2

/-- The bit it rotates or shifts out. -/
def rotatedOut (op : RotOp) (v : Nat) : Nat :=
  match op with
  | .rlc | .rl | .sla => v / 128
  | .rrc | .rr | .sra | .srl => v % 2

/-- A rotate of A on the main page (R245 to R248). -/
def RotatesA (op : RotOp) (i : Instr) : Prop :=
  Does i (fun _ => [.reg .a, .flag .c, .flag .h, .flag .n]) fun s t =>
    t.main.a.toNat = rotatedValue op s.main.a.toNat (s.flag .c).toNat ∧
    (t.flag .c = true ↔ rotatedOut op s.main.a.toNat = 1) ∧ HalfAndSubtractClear t

/-- The three places of a CB-page instruction (R249): what it is read from and the part it is. -/
def CbForms (onReg : Reg8 → Instr) (onHl : Instr) (onIdx : Idx → Byte → Instr)
    (claim : Instr → (State → Part) → (State → State → Byte) → Prop) : Prop :=
  (∀ r, claim (onReg r) (fun _ => .reg r) fun _ u => u.reg r) ∧
  claim onHl (fun s => .byte s.main.hl) (fun s u => u.readByte s.main.hl) ∧
  (∀ x d, claim (onIdx x d) (fun s => .byte (s.indexed x d)) fun s u => u.readByte (s.indexed x d))

/-- A CB rotate or shift of a place (R250). -/
def RotatesPlace (op : RotOp) (i : Instr) (part : State → Part) (value : State → State → Byte) : Prop :=
  Does i (fun s => part s :: namedFlags) fun s t =>
    (value s t).toNat = rotatedValue op (value s s).toNat (s.flag .c).toNat ∧
    (t.flag .c = true ↔ rotatedOut op (value s s).toNat = 1) ∧ SignZero t (value s t) ∧ EvenParity t (value s t) ∧
    HalfAndSubtractClear t

/-- Bit `b` of a place is written with `w`, no other bit and no flag (R260, R261). -/
def WritesBit (b : Fin 8) (w : Bool) (i : Instr) (part : State → Part) (value : State → State → Byte) : Prop :=
  Does i (fun s => [part s]) fun s t =>
    ∀ k < 8, (value s t).getLsbD k = if k = b.val then w else (value s s).getLsbD k

/-- Bit `b` of a place is tested (R259). -/
def TestsBit (b : Fin 8) (i : Instr) (_part : State → Part) (value : State → State → Byte) : Prop :=
  Does i (fun _ => [.flag .z, .flag .h, .flag .n]) fun s t =>
    (t.flag .z = true ↔ (value s s).getLsbD b.val = false) ∧ t.flag .h = true ∧ t.flag .n = false

/-- What a port call may change (20_memory.md R71, R72, R83; 60_exceptions.md R437). -/
def portParts : List Part := [.events, .pending, .halted, .peripherals]

/-- A handler was called that answers `answer`, unless an input script fixes its reply (log entry 2). The reply's value is
`v`, the peripheral state is the one it leaves, and it may request an interrupt (R437, R485). -/
def CalledHandler (answer : HandlerReply) (v : Byte) (s t : State) : Prop :=
  ∃ r : HandlerReply,
    ((∃ rest, s.replies = r :: rest ∧ t.replies = rest) ∨ (s.replies = [] ∧ t.replies = [] ∧ r = answer)) ∧
    v = r.value ∧ t.peripheral = r.peripheral ∧ t.pending = (s.pending || r.irq) ∧
    t.halted = (s.halted && !(r.irq && s.iff1))

/-- No handler was called. -/
def CalledNone (s t : State) : Prop := Same s t .pending ∧ Same s t .halted ∧ Same s t .peripherals

/-- `PortRead(p)` gave `v` (R71). -/
def ReadsPort (p v : Byte) (s t : State) : Prop :=
  t.events = s.events ++ [.portIn p v] ∧
  (∀ fn, s.cfg.inPorts.lookup p = some fn → CalledHandler (Config.inHandler fn p s.peripheral) v s t) ∧
  (s.cfg.inPorts.lookup p = none → v = 0xFF ∧ CalledNone s t)

/-- `PortWrite(p, v)` (R72). -/
def WritesPort (p v : Byte) (s t : State) : Prop :=
  t.events = s.events ++ [.portOut p v] ∧
  (∀ fn, s.cfg.outPorts.lookup p = some fn → ∃ w, CalledHandler (Config.outHandler fn p v s.peripheral) w s t) ∧
  (s.cfg.outPorts.lookup p = none → CalledNone s t)

/-- A port table after a registration: it replaces an earlier one for the port and leaves the others (R73, D23). -/
def LastRegistrationWins (p : Byte) (fn : Nat) (old new : List (Byte × Nat)) : Prop :=
  ∀ q, new.lookup q = if q = p then some fn else old.lookup q

/-- An instruction executed `n` times in a row. -/
def execTimes (i : Instr) : Nat → State → Result
  | 0, s => .next s
  | n + 1, s =>
    match exec i s with
    | .next t => execTimes i n t
    | o => o

/-- The repeating instruction is the single one executed in one go until `stop` holds: at least once, at most `bound`
times, and `stop` holds after the last time and not earlier (46_block.md R313, R317, R321, R325, R327, R328). -/
def Repeats (rep one : Instr) (stop : State → Prop) (bound : Nat) : Prop :=
  ∀ s, ∃ n t, 1 ≤ n ∧ n ≤ bound ∧ execTimes one n s = .next t ∧ exec rep s = .next t ∧ stop t ∧
    ∀ k u, 1 ≤ k → k < n → execTimes one k s = .next u → ¬stop u

/-- Whatever follows the bytes, they decode to the instruction and to nothing shorter or longer. -/
def DecodesTo (bytes : List Byte) (i : Instr) : Prop := ∀ rest, decode (bytes ++ rest) = some (i, bytes.length)

/-- An index prefix changes nothing of the instruction: it decodes as its own unprefixed form and runs like it (R117). -/
def PrefixChangesNothing (i : Instr) : Prop :=
  ∀ x, DecodesTo (x.byte :: encode i) (.pOp x i) ∧ ∀ s, exec (.pOp x i) s = exec i s

/-- The instruction without a prefix that has no effect. -/
def bareInstr : Instr → Instr
  | .pOp _ i => i
  | i => i

/-- The instructions that write Y and X (10_state.md R28): the accumulator operations, NEG, POP AF, EX AF,AF'. -/
def writesYX : Instr → Bool
  | .addAR _ | .addAIndHl | .addAN _ | .addAIdx _ _ | .addAHalf _ _ => true
  | .adcAR _ | .adcAIndHl | .adcAN _ | .adcAIdx _ _ | .adcAHalf _ _ => true
  | .subR _ | .subIndHl | .subN _ | .subIdx _ _ | .subHalf _ _ => true
  | .sbcAR _ | .sbcAIndHl | .sbcAN _ | .sbcAIdx _ _ | .sbcAHalf _ _ => true
  | .andR _ | .andIndHl | .andN _ | .andIdx _ _ | .andHalf _ _ => true
  | .xorR _ | .xorIndHl | .xorN _ | .xorIdx _ _ | .xorHalf _ _ => true
  | .orR _ | .orIndHl | .orN _ | .orIdx _ _ | .orHalf _ _ => true
  | .cpR _ | .cpIndHl | .cpN _ | .cpIdx _ _ | .cpHalf _ _ => true
  | .neg | .popRp2 .af | .exAfAf => true
  | _ => false

/-- The instructions whose SP arithmetic can fault (10_state.md R25). -/
def usesStack : Instr → Bool
  | .pushRp2 _ | .pushXy _ | .popRp2 _ | .popXy _ | .callNn _ | .callCcNn _ _ | .rst _ => true
  | .ret | .retCc _ | .reti | .retn | .incRp .sp | .decRp .sp => true
  | _ => false

/-- The machine reaches the decode procedure at this state's step (60_exceptions.md R436). -/
abbrev ReachesDecode (s : State) : Prop :=
  s.fault = none ∧ ¬(s.pending = true ∧ s.iff1 = true) ∧ s.halted = false

/-- The index prefix bytes (30_encoding.md R95). -/
abbrev IsPrefix (b : Byte) : Prop := b = 0xDD ∨ b = 0xFD

/-- A two-digit decimal number as packed BCD. -/
def bcd (n : Nat) : Byte := BitVec.ofNat 8 (n / 10 * 16 + n % 10)

/-- What the assembler never emits (R411): a prefix byte or a redundant prefix, an index-half form, an unknown sub-opcode,
the ED forms of `LD` for HL. -/
def neverEmitted : Instr → Bool
  | .prefixCB | .prefixDD | .prefixED | .prefixFD | .pOp _ _ => true
  | .ldRRHalf _ _ _ | .ldHalfN _ _ _ | .incHalf _ _ | .decHalf _ _ => true
  | .addAHalf _ _ | .adcAHalf _ _ | .subHalf _ _ | .sbcAHalf _ _ => true
  | .andHalf _ _ | .xorHalf _ _ | .orHalf _ _ | .cpHalf _ _ => true
  | .unknownCb _ | .unknownIndexCb36 _ _ | .unknownIndexCb _ _ _ | .unknownEd _ => true
  | .ldMemRp _ .hl | .ldRpMem .hl _ => true
  | _ => false

/-- The statement is selected as `made` of the offset byte that reaches `target` from its own address (R389); an offset
outside -128..127, and no other, is refused with its value (R414). -/
def SelectsOffset (env : AsmEnv) (mnemonic : String) (ops : List AsmOperand) (made : Byte → Instr) (target : Int) : Prop :=
  let k : Int := target - ((env.addr : Int) + 2)
  (∀ i, env.select mnemonic ops = .ok i → ∃ b, i = made b ∧ (env.addr : Int) + 2 + b.toInt = target) ∧
  (-128 ≤ k ∧ k ≤ 127 → ∃ b, env.select mnemonic ops = .ok (made b)) ∧
  (k < -128 ∨ 127 < k → env.select mnemonic ops = .error (.outOfRangeRelative k))

end Sys2Proof.Machine

open Sys2Proof Sys2Proof.Machine

/-! ## Encoding -/

/-- R90 to R112: decoding an encoded well-formed instruction gives it back, with every operand at every value, whatever
bytes follow. -/
def Obligations.DecodeOfEncode : Prop :=
  ∀ (i : Instr) (rest : List Byte), i.WellFormed → decode (encode i ++ rest) = some (i, (encode i).length)

/-- R93 to R95: what the decoder reads is well formed, and the bytes it took are redundant index prefixes and then exactly
the instruction's encoding. -/
def Obligations.EncodeOfDecode : Prop :=
  ∀ (bytes : List Byte) (i : Instr) (n : Nat), decode bytes = some (i, n) →
    i.WellFormed ∧ ∃ pre, (∀ b ∈ pre, IsPrefix b) ∧ bytes.take n = pre ++ encode i ∧
      n = pre.length + (encode i).length

/-- R94, R95, R97, R108 to R112, words written out from the spec's encodings. -/
def Obligations.WordsWrittenOut : Prop :=
  DecodesTo [0x78] (.ldRR .a .b) ∧ DecodesTo [0x3E, 0x0A] (.ldRN .a 10) ∧ DecodesTo [0x76] .halt ∧
  DecodesTo [0x21, 0x34, 0x12] (.ldRpNn .hl 0x1234) ∧ DecodesTo [0xC6, 0x14] (.addAN 20) ∧
  DecodesTo [0xCB, 0x7F] (.bitR 7 .a) ∧ DecodesTo [0xED, 0xB0] .ldir ∧ DecodesTo [0xED, 0x70] (.unknownEd 0x70) ∧
  DecodesTo [0xDD, 0x65] (.ldRRHalf .ix .xyh .xyl) ∧ DecodesTo [0xDD, 0x66, 0x05] (.ldRIdx .h .ix 5) ∧
  DecodesTo [0xDD, 0x36, 0xFF, 0x5A] (.ldIdxN .ix 0xFF 0x5A) ∧
  DecodesTo [0xFD, 0xCB, 0xFF, 0x7E] (.bitIdx 7 .iy 0xFF) ∧
  DecodesTo [0xDD, 0xFD, 0x21, 0x34, 0x12] (.ldXyNn .iy 0x1234) ∧ DecodesTo [0xDD, 0xED, 0x4A] (.adcHlRp .bc) ∧
  DecodesTo [0xDD, 0x00] (.pOp .ix .nop)

/-! ## Memory and effective addresses -/

/-- R61, R62, R64, R66, R68: a byte read after a write, at the same address and at every other; a word lies low byte
first, at any address, 0xFFFF included. R97: an effective address is `(XY + sext_8(d)) & 0xFFFF`. R11, R21, R24: a pair
is its high and its low register. -/
def Obligations.MemoryAndAddresses : Prop :=
  (∀ (s : State) (a b v : Word) (n : Byte),
    (s.writeByte a n).readByte b = (if b = a then n else s.readByte b) ∧
    (s.writeWord a v).readByte a = lo v ∧ (s.writeWord a v).readByte (a + 1) = hi v ∧
    (s.writeWord a v).readWord a = v ∧
    (b ≠ a → b ≠ a + 1 → (s.writeWord a v).readByte b = s.readByte b)) ∧
  (∀ (s : State) (x : Idx) (d : Byte),
    ((s.indexed x d).toNat : Int) = (((s.xy x).toNat : Int) + d.toInt) % 65536 ∧
    s.main.hl.toNat = s.main.h.toNat * 256 + s.main.l.toNat ∧ s.main.bc.toNat = s.main.b.toNat * 256 + s.main.c.toNat ∧
    s.main.de.toNat = s.main.d.toNat * 256 + s.main.e.toNat ∧
    (s.xy x).toNat = (s.half x .high).toNat * 256 + (s.half x .low).toNat)

/-- R63: `load` stores each byte in turn with wrap, changes nothing else, and a long list goes on where its first part
ended. -/
def Obligations.LoadStoresInOrder : Prop :=
  ∀ (s : State) (base : Word) (bytes more : List Byte),
    (bytes.length ≤ 65536 → ∀ (k : Nat) (h : k < bytes.length),
      (s.load base bytes).readByte (base + BitVec.ofNat 16 k) = bytes[k]) ∧
    OnlyChanges ((List.range bytes.length).map fun k => .byte (base + BitVec.ofNat 16 k)) s (s.load base bytes) ∧
    s.load base (bytes ++ more) = (s.load base bytes).load (base + BitVec.ofNat 16 bytes.length) more

/-! ## 8-bit loads -/

/-- R131 to R133, R136 to R138: loads of a plain register and, under an index prefix, of a half of the index register (the
other half is kept), and their frame. -/
def Obligations.LoadRegister : Prop :=
  (∀ r r', Does (.ldRR r r') (fun _ => [.reg r]) fun s t => t.reg r = s.reg r') ∧
  (∀ r n, Does (.ldRN r n) (fun _ => [.reg r]) fun _ t => t.reg r = n) ∧
  (∀ r, Does (.ldRIndHl r) (fun _ => [.reg r]) fun s t => t.reg r = s.readByte s.main.hl) ∧
  (∀ r x d, Does (.ldRIdx r x d) (fun _ => [.reg r]) fun s t => t.reg r = s.readByte (s.indexed x d)) ∧
  Does .ldAIndBc (fun _ => [.reg .a]) (fun s t => t.main.a = s.readByte s.main.bc) ∧
  Does .ldAIndDe (fun _ => [.reg .a]) (fun s t => t.main.a = s.readByte s.main.de) ∧
  (∀ nn, Does (.ldAMem nn) (fun _ => [.reg .a]) fun s t => t.main.a = s.readByte nn) ∧
  (∀ x hf n, Does (.ldHalfN x hf n) (fun _ => [.half x hf]) fun _ t => t.half x hf = n) ∧
  (∀ x r r', Does (.ldRRHalf x r r') (fun _ => [regXPart x r]) fun s t => t.regX x r = s.regX x r')

/-- R134, R135, R139 to R141: byte stores, and their frame: every byte but the one stored. -/
def Obligations.StoreByte : Prop :=
  (∀ r, Does (.ldIndHlR r) (fun s => [.byte s.main.hl]) fun s t => t.readByte s.main.hl = s.reg r) ∧
  (∀ x d r, Does (.ldIdxR x d r) (fun s => [.byte (s.indexed x d)]) fun s t => t.readByte (s.indexed x d) = s.reg r) ∧
  (∀ n, Does (.ldIndHlN n) (fun s => [.byte s.main.hl]) fun s t => t.readByte s.main.hl = n) ∧
  (∀ x d n, Does (.ldIdxN x d n) (fun s => [.byte (s.indexed x d)]) fun s t => t.readByte (s.indexed x d) = n) ∧
  Does .ldIndBcA (fun s => [.byte s.main.bc]) (fun s t => t.readByte s.main.bc = s.main.a) ∧
  Does .ldIndDeA (fun s => [.byte s.main.de]) (fun s t => t.readByte s.main.de = s.main.a) ∧
  (∀ nn, Does (.ldMemA nn) (fun _ => [.byte nn]) fun s t => t.readByte nn = s.main.a)

/-- R147, R148: `LD I,A` and `LD R,A`: encoding, effect (all 8 bits), frame. -/
def Obligations.LoadSpecialRegisters : Prop :=
  DecodesTo [0xED, 0x47] .ldIA ∧ Does .ldIA (fun _ => [.regI]) (fun s t => t.regI = s.main.a) ∧
  DecodesTo [0xED, 0x4F] .ldRA ∧ Does .ldRA (fun _ => [.regR]) (fun s t => t.regR = s.main.a)

/-- R149, R150: `LD A,I` and `LD A,R`; P/V is iff2 (D18 takes the Zilog flags). -/
def Obligations.ReadSpecialRegisters : Prop :=
  Does .ldAI (fun _ => .reg .a :: incFlags)
    (fun s t => t.main.a = s.regI ∧ SignZero t s.regI ∧ t.flag .pv = s.iff2 ∧ HalfAndSubtractClear t) ∧
  Does .ldAR (fun _ => .reg .a :: incFlags)
    (fun s t => t.main.a = s.regR ∧ SignZero t s.regR ∧ t.flag .pv = s.iff2 ∧ HalfAndSubtractClear t)

/-! ## 16-bit loads, stack, exchanges -/

/-- R160 to R165: loads of a pair, SP among them (no value faults), word stores, low byte at the lower address, and their
frame: every byte but those two. -/
def Obligations.LoadAndStorePair : Prop :=
  (∀ rp nn, Does (.ldRpNn rp nn) (fun _ => pairParts rp) fun _ t => t.rp rp = nn) ∧
  (∀ x nn, Does (.ldXyNn x nn) (fun _ => indexParts x) fun _ t => t.xy x = nn) ∧
  (∀ nn, Does (.ldHlMem nn) (fun _ => pairParts .hl) fun s t =>
    t.main.l = s.readByte nn ∧ t.main.h = s.readByte (nn + 1)) ∧
  (∀ x nn, Does (.ldXyMem x nn) (fun _ => indexParts x) fun s t =>
    t.half x .low = s.readByte nn ∧ t.half x .high = s.readByte (nn + 1)) ∧
  (∀ rp nn, Does (.ldRpMem rp nn) (fun _ => pairParts rp) fun s t =>
    t.rp rp = pair (s.readByte (nn + 1)) (s.readByte nn)) ∧
  Does .ldSpHl (fun _ => [.sp]) (fun s t => t.sp = s.main.hl) ∧
  (∀ x, Does (.ldSpXy x) (fun _ => [.sp]) fun s t => t.sp = s.xy x) ∧
  (∀ nn, Does (.ldMemHl nn) (fun _ => [.byte nn, .byte (nn + 1)]) fun s t =>
    t.readByte nn = s.main.l ∧ t.readByte (nn + 1) = s.main.h) ∧
  (∀ x nn, Does (.ldMemXy x nn) (fun _ => [.byte nn, .byte (nn + 1)]) fun s t =>
    t.readByte nn = s.half x .low ∧ t.readByte (nn + 1) = s.half x .high) ∧
  (∀ rp nn, Does (.ldMemRp nn rp) (fun _ => [.byte nn, .byte (nn + 1)]) fun s t =>
    t.readByte nn = lo (s.rp rp) ∧ t.readByte (nn + 1) = hi (s.rp rp))

/-- R166, R167, R432, R433: PUSH and POP where there is room, and their frame. -/
def Obligations.PushAndPop : Prop :=
  (∀ q, DoesWhen RoomToPush (.pushRp2 q) pushParts fun s t => Pushes (s.rp2 q) s t) ∧
  (∀ x, DoesWhen RoomToPush (.pushXy x) pushParts fun s t => Pushes (s.xy x) s t) ∧
  (∀ q, DoesWhen RoomToPop (.popRp2 q) (fun _ => .sp :: stackPairParts q) fun s t =>
    t.sp = s.sp + 2 ∧ t.rp2 q = topWord s) ∧
  (∀ x, DoesWhen RoomToPop (.popXy x) (fun _ => .sp :: indexParts x) fun s t =>
    t.sp = s.sp + 2 ∧ t.xy x = topWord s)

/-- R179, R294: after a push and a pop of the same pair, and after a call and a return, every part is as before but the two
bytes below SP; a push and a pop of another register move the word. -/
def Obligations.StackRoundTrips : Prop :=
  (∀ q s, RoomToPush s → ∃ t u, exec (.pushRp2 q) s = .next t ∧ exec (.popRp2 q) t = .next u ∧
    OnlyChanges [.byte (s.sp - 1), .byte (s.sp - 2)] s u) ∧
  (∀ x s, RoomToPush s → ∃ t u, exec (.pushXy x) s = .next t ∧ exec (.popXy x) t = .next u ∧
    OnlyChanges [.byte (s.sp - 1), .byte (s.sp - 2)] s u) ∧
  (∀ q x s, RoomToPush s → ∃ t u, exec (.pushRp2 q) s = .next t ∧ exec (.popXy x) t = .next u ∧
    u.xy x = s.rp2 q ∧ u.sp = s.sp) ∧
  (∀ nn s, RoomToPush s → ∃ t u, exec (.callNn nn) s = .next t ∧ exec .ret t = .next u ∧
    OnlyChanges [.byte (s.sp - 1), .byte (s.sp - 2)] s u) ∧
  (∀ n s, RoomToPush s → ∃ t u, exec (.rst n) s = .next t ∧ exec .reti t = .next u ∧
    OnlyChanges [.byte (s.sp - 1), .byte (s.sp - 2)] s u)

/-- R431 to R433: where a push and a pop fault and what they leave, for every instruction that pushes or pops (D11). -/
def Obligations.StackFaults : Prop :=
  (∀ q, PushFaultsWhen (fun _ => True) (.pushRp2 q) fun s => s.rp2 q) ∧
  (∀ x, PushFaultsWhen (fun _ => True) (.pushXy x) fun s => s.xy x) ∧
  (∀ nn, PushFaultsWhen (fun _ => True) (.callNn nn) fun s => s.pc) ∧
  (∀ cc nn, PushFaultsWhen (fun s => CondTrue s cc) (.callCcNn cc nn) fun s => s.pc) ∧
  (∀ n, PushFaultsWhen (fun _ => True) (.rst n) fun s => s.pc) ∧
  (∀ q, PopFaultsWhen (fun _ => True) (.popRp2 q)) ∧ (∀ x, PopFaultsWhen (fun _ => True) (.popXy x)) ∧
  PopFaultsWhen (fun _ => True) .ret ∧ (∀ cc, PopFaultsWhen (fun s => CondTrue s cc) (.retCc cc)) ∧
  PopFaultsWhen (fun _ => True) .reti ∧ PopFaultsWhen (fun _ => True) .retn

/-- R175, R176, R177: the register exchanges: encoding, effect, frame, twice is nothing, and no index prefix changes
`EX DE,HL` and `EXX`. -/
def Obligations.Exchanges : Prop :=
  DecodesTo [0xEB] .exDeHl ∧ DecodesTo [0x08] .exAfAf ∧ DecodesTo [0xD9] .exx ∧
  PrefixChangesNothing .exDeHl ∧ PrefixChangesNothing .exx ∧
  Does .exDeHl (fun _ => pairParts .de ++ pairParts .hl) (fun s t => t.main.de = s.main.hl ∧ t.main.hl = s.main.de) ∧
  Does .exAfAf (fun _ => .reg .a :: .shadowReg .a :: .shadowF :: allFlags) (fun s t =>
    t.main.a = s.shadow.a ∧ t.main.f = s.shadow.f ∧ t.shadow.a = s.main.a ∧ t.shadow.f = s.main.f) ∧
  (∀ s, ∃ t, exec .exx s = .next t ∧ (∀ r, r ≠ .a → t.reg r = s.shadow.get r ∧ t.shadow.get r = s.reg r) ∧
    OnlyChanges ([Reg8.b, .c, .d, .e, .h, .l].flatMap fun r => [Part.reg r, Part.shadowReg r]) s t) ∧
  (∀ i ∈ [Instr.exDeHl, .exAfAf, .exx], ∀ s, execTimes i 2 s = .next s)

/-- R178: `EX (SP),HL/IX/IY`: SP is kept, its high byte is at SP + 1 with wrap, and nothing faults (D11, D29). -/
def Obligations.ExchangeStackTop : Prop :=
  Does .exIndSpHl (fun s => pairParts .hl ++ ([.byte s.sp, .byte (s.sp + 1)] : List Part)) (fun s t =>
    t.main.l = s.readByte s.sp ∧ t.main.h = s.readByte (s.sp + 1) ∧
    t.readByte s.sp = s.main.l ∧ t.readByte (s.sp + 1) = s.main.h) ∧
  (∀ x, Does (.exIndSpXy x) (fun s => indexParts x ++ ([.byte s.sp, .byte (s.sp + 1)] : List Part)) fun s t =>
    t.half x .low = s.readByte s.sp ∧ t.half x .high = s.readByte (s.sp + 1) ∧
    t.readByte s.sp = s.half x .low ∧ t.readByte (s.sp + 1) = s.half x .high)

/-! ## 8-bit arithmetic -/

/-- R190 to R193: `ADD` and `ADC` in every operand form: A, every flag (Y = X = 0 is D7) and the frame. -/
def Obligations.AddAndAdc : Prop :=
  AccumulatorForms .addAR .addAIndHl .addAN .addAIdx .addAHalf (fun i v =>
    Does i (fun _ => .reg .a :: allFlags) (AddResult v fun _ => 0)) ∧
  AccumulatorForms .adcAR .adcAIndHl .adcAN .adcAIdx .adcAHalf (fun i v =>
    Does i (fun _ => .reg .a :: allFlags) (AddResult v fun s => (s.flag .c).toNat))

/-- R190, R191, R194, R195, R199, R206: `SUB`, `SBC`, `CP` in every operand form and `NEG`: A, every flag (Y = X = 0 is D7)
and the frame; `CP` keeps A. -/
def Obligations.SubSbcCpNeg : Prop :=
  AccumulatorForms .subR .subIndHl .subN .subIdx .subHalf (fun i v =>
    Does i (fun _ => .reg .a :: allFlags) (SubResult (fun s => s.main.a) v (fun _ => 0) fun t => t.main.a)) ∧
  AccumulatorForms .sbcAR .sbcAIndHl .sbcAN .sbcAIdx .sbcAHalf (fun i v =>
    Does i (fun _ => .reg .a :: allFlags)
      (SubResult (fun s => s.main.a) v (fun s => (s.flag .c).toNat) fun t => t.main.a)) ∧
  AccumulatorForms .cpR .cpIndHl .cpN .cpIdx .cpHalf (fun i v => Does i (fun _ => allFlags) (CompareResult v)) ∧
  Does .neg (fun _ => .reg .a :: allFlags)
    (SubResult (fun _ => 0) (fun s => s.main.a) (fun _ => 0) fun t => t.main.a)

/-- R190, R191, R196 to R198: `AND`, `XOR`, `OR` in every operand form: A, every flag (H = 0 after `AND` is D9, Y = X = 0
is D7) and the frame. -/
def Obligations.AndXorOr : Prop :=
  AccumulatorForms .andR .andIndHl .andN .andIdx .andHalf (fun i v =>
    Does i (fun _ => .reg .a :: allFlags) (LogicResult (fun a b => a && b) v)) ∧
  AccumulatorForms .xorR .xorIndHl .xorN .xorIdx .xorHalf (fun i v =>
    Does i (fun _ => .reg .a :: allFlags) (LogicResult (fun a b => a != b) v)) ∧
  AccumulatorForms .orR .orIndHl .orN .orIdx .orHalf (fun i v =>
    Does i (fun _ => .reg .a :: allFlags) (LogicResult (fun a b => a || b) v))

/-- R200 to R203: INC and DEC of a register, an index half and a memory byte: the byte, the flags (N is D8) and the
frame: C, Y and X among what is kept. -/
def Obligations.IncAndDecByte : Prop :=
  (∀ r, Does (.incR r) (fun _ => .reg r :: incFlags) fun s t => IncResult (s.reg r) (t.reg r) t) ∧
  (∀ x hf, Does (.incHalf x hf) (fun _ => .half x hf :: incFlags) fun s t => IncResult (s.half x hf) (t.half x hf) t) ∧
  Does .incIndHl (fun s => .byte s.main.hl :: incFlags)
    (fun s t => IncResult (s.readByte s.main.hl) (t.readByte s.main.hl) t) ∧
  (∀ x d, Does (.incIdx x d) (fun s => .byte (s.indexed x d) :: incFlags) fun s t =>
    IncResult (s.readByte (s.indexed x d)) (t.readByte (s.indexed x d)) t) ∧
  (∀ r, Does (.decR r) (fun _ => .reg r :: incFlags) fun s t => DecResult (s.reg r) (t.reg r) t) ∧
  (∀ x hf, Does (.decHalf x hf) (fun _ => .half x hf :: incFlags) fun s t => DecResult (s.half x hf) (t.half x hf) t) ∧
  Does .decIndHl (fun s => .byte s.main.hl :: incFlags)
    (fun s t => DecResult (s.readByte s.main.hl) (t.readByte s.main.hl) t) ∧
  (∀ x d, Does (.decIdx x d) (fun s => .byte (s.indexed x d) :: incFlags) fun s t =>
    DecResult (s.readByte (s.indexed x d)) (t.readByte (s.indexed x d)) t)

/-- R205, R207, R208: `CPL`, `SCF`, `CCF`: encoding, effect, frame. Their semantics is decision D18 (log entry 9). -/
def Obligations.CplScfCcf : Prop :=
  DecodesTo [0x2F] .cpl ∧ DecodesTo [0x37] .scf ∧ DecodesTo [0x3F] .ccf ∧
  Does .cpl (fun _ => [.reg .a, .flag .h, .flag .n])
    (fun s t => t.main.a.toNat = 255 - s.main.a.toNat ∧ t.flag .h = true ∧ t.flag .n = true) ∧
  Does .scf (fun _ => [.flag .c, .flag .h, .flag .n]) (fun _ t => t.flag .c = true ∧ HalfAndSubtractClear t) ∧
  Does .ccf (fun _ => [.flag .c, .flag .h, .flag .n])
    (fun s t => t.flag .c = !s.flag .c ∧ t.flag .h = s.flag .c ∧ t.flag .n = false)

/-- R204: `DAA`, its value, flags and frame (D18 takes the Zilog semantics). -/
def Obligations.DecimalAdjust : Prop :=
  Does .daa (fun _ => .reg .a :: [.flag .s, .flag .z, .flag .h, .flag .pv, .flag .c]) fun s t =>
    let a := s.main.a.toNat
    let corr := (if s.flag .h = true ∨ 9 < a % 16 then 6 else 0) + (if s.flag .c = true ∨ 0x99 < a then 0x60 else 0)
    t.main.a.toNat = (if s.flag .n = true then (a + 256 - corr) % 256 else (a + corr) % 256) ∧
    (t.flag .c = true ↔ s.flag .c = true ∨ 0x99 < a) ∧
    (t.flag .h = true ↔ if s.flag .n = true then s.flag .h = true ∧ a % 16 < 6 else 9 < a % 16) ∧
    SignZero t t.main.a ∧ EvenParity t t.main.a

/-- R192, R204: "Decimal adjust of A after a BCD add": for two decimal numbers, `ADD` then `DAA` gives the BCD sum, and C
says that it passed 99. -/
def Obligations.DaaAddsDecimals : Prop :=
  ∀ (s : State) (m n : Nat), m < 100 → n < 100 → s.main.a = bcd m →
    ∃ t u, exec (.addAN (bcd n)) s = .next t ∧ exec .daa t = .next u ∧
      u.main.a = bcd ((m + n) % 100) ∧ (u.flag .c = true ↔ 100 ≤ m + n)

/-- R132, R192, R436 (the source's property P4): two steps over `LD A,x ; ADD A,y` give `A = (x + y) & 0xFF` and C says
`x + y > 0xFF`. -/
def Obligations.AddProperty : Prop :=
  ∀ (s : State) (x y : Byte), ReachesDecode s → s.cfg.unimplemented = [] →
    s.bytesFrom 4 s.pc = [0x3E, x, 0xC6, y] →
    ∃ t u, step s = .next t ∧ step t = .next u ∧ u.main.a.toNat = (x.toNat + y.toNat) % 256 ∧
      (u.flag .c = true ↔ 255 < x.toNat + y.toNat) ∧ u.pc = s.pc + 4

/-! ## 16-bit arithmetic -/

/-- R230: `ADD HL,rp`, `ADD XY,rp`: the sum, C and H, and the frame: S, Z, P/V among what is kept. R231, R232: `ADC HL,rp`,
`SBC HL,rp`: the result, six flags (P/V is signed overflow), and the frame. -/
def Obligations.PairArithmetic : Prop :=
  (∀ rp, Does (.addHlRp rp) (fun _ => pairParts .hl ++ ([.flag .c, .flag .h, .flag .n] : List Part)) fun s t =>
    t.main.hl.toNat = (s.main.hl.toNat + (s.rp rp).toNat) % 65536 ∧
    (t.flag .c = true ↔ 0xFFFF < s.main.hl.toNat + (s.rp rp).toNat) ∧
    (t.flag .h = true ↔ 0xFFF < s.main.hl.toNat % 0x1000 + (s.rp rp).toNat % 0x1000) ∧ t.flag .n = false) ∧
  (∀ x rp, Does (.addXyRp x rp) (fun _ => indexParts x ++ ([.flag .c, .flag .h, .flag .n] : List Part)) fun s t =>
    (t.xy x).toNat = ((s.xy x).toNat + (s.rpX x rp).toNat) % 65536 ∧
    (t.flag .c = true ↔ 0xFFFF < (s.xy x).toNat + (s.rpX x rp).toNat) ∧
    (t.flag .h = true ↔ 0xFFF < (s.xy x).toNat % 0x1000 + (s.rpX x rp).toNat % 0x1000) ∧ t.flag .n = false) ∧
  (∀ rp, Does (.adcHlRp rp) (fun _ => pairParts .hl ++ namedFlags) fun s t =>
    let a := s.main.hl
    let b := s.rp rp
    let cin := (s.flag .c).toNat
    let sum := a.toInt + b.toInt + (cin : Int)
    t.main.hl.toNat = (a.toNat + b.toNat + cin) % 65536 ∧
    (t.flag .s = true ↔ 0x8000 ≤ t.main.hl.toNat) ∧ (t.flag .z = true ↔ t.main.hl.toNat = 0) ∧
    (t.flag .h = true ↔ 0xFFF < a.toNat % 0x1000 + b.toNat % 0x1000 + cin) ∧
    (t.flag .pv = true ↔ sum < -32768 ∨ 32767 < sum) ∧ t.flag .n = false ∧
    (t.flag .c = true ↔ 0xFFFF < a.toNat + b.toNat + cin)) ∧
  (∀ rp, Does (.sbcHlRp rp) (fun _ => pairParts .hl ++ namedFlags) fun s t =>
    let a := s.main.hl
    let b := s.rp rp
    let cin := (s.flag .c).toNat
    let diff := a.toInt - b.toInt - (cin : Int)
    (t.main.hl.toNat : Int) = ((a.toNat : Int) - b.toNat - cin) % 65536 ∧
    (t.flag .s = true ↔ 0x8000 ≤ t.main.hl.toNat) ∧ (t.flag .z = true ↔ t.main.hl.toNat = 0) ∧
    (t.flag .h = true ↔ a.toNat % 0x1000 < b.toNat % 0x1000 + cin) ∧
    (t.flag .pv = true ↔ diff < -32768 ∨ 32767 < diff) ∧ t.flag .n = true ∧
    (t.flag .c = true ↔ a.toNat < b.toNat + cin))

/-- R233, R234: INC and DEC of a pair wrap and touch no flag; of SP they complete inside the range and fault at its ends,
SP kept (D11). -/
def Obligations.IncAndDecPair : Prop :=
  (∀ rp, DoesWhen (fun s => rp = .sp → s.sp ≠ 0xFFFF) (.incRp rp) (fun _ => pairParts rp) fun s t =>
    t.rp rp = s.rp rp + 1) ∧
  (∀ rp, DoesWhen (fun s => rp = .sp → s.sp ≠ 0) (.decRp rp) (fun _ => pairParts rp) fun s t =>
    t.rp rp = s.rp rp - 1) ∧
  (∀ x, Does (.incXy x) (fun _ => indexParts x) fun s t => t.xy x = s.xy x + 1) ∧
  (∀ x, Does (.decXy x) (fun _ => indexParts x) fun s t => t.xy x = s.xy x - 1) ∧
  StackFaultsWhen (fun s => s.sp = 0xFFFF) (.incRp .sp) (fun _ => []) (fun _ _ => True) ∧
  StackFaultsWhen (fun s => s.sp = 0) (.decRp .sp) (fun _ => []) (fun _ _ => True)

/-! ## Rotates, shifts, bits -/

/-- R245 to R248: the rotates of A: encoding, value, C, H = N = 0, and the frame: S, Z, P/V, Y, X kept; no prefix changes
`RLCA`. -/
def Obligations.RotateA : Prop :=
  DecodesTo [0x07] .rlca ∧ DecodesTo [0x0F] .rrca ∧ DecodesTo [0x17] .rla ∧ DecodesTo [0x1F] .rra ∧
  RotatesA .rlc .rlca ∧ RotatesA .rrc .rrca ∧ RotatesA .rl .rla ∧ RotatesA .rr .rra ∧ PrefixChangesNothing .rlca

/-- R249 to R257, R262: the seven CB rotates and shifts on a register, `(HL)` and `(XY+d)`: value, six flags, frame. -/
def Obligations.RotateAndShift : Prop :=
  CbForms .rlcR .rlcIndHl .rlcIdx (RotatesPlace .rlc) ∧ CbForms .rrcR .rrcIndHl .rrcIdx (RotatesPlace .rrc) ∧
  CbForms .rlR .rlIndHl .rlIdx (RotatesPlace .rl) ∧ CbForms .rrR .rrIndHl .rrIdx (RotatesPlace .rr) ∧
  CbForms .slaR .slaIndHl .slaIdx (RotatesPlace .sla) ∧ CbForms .sraR .sraIndHl .sraIdx (RotatesPlace .sra) ∧
  CbForms .srlR .srlIndHl .srlIdx (RotatesPlace .srl)

/-- R259 to R261: BIT (S, P/V, C kept is D10), RES and SET on a register, `(HL)` and `(XY+d)`, and their frame. -/
def Obligations.BitResSet : Prop :=
  ∀ b : Fin 8,
    CbForms (.bitR b) (.bitIndHl b) (.bitIdx b) (TestsBit b) ∧
    CbForms (.resR b) (.resIndHl b) (.resIdx b) (WritesBit b false) ∧
    CbForms (.setR b) (.setIndHl b) (.setIdx b) (WritesBit b true)

/-- R263, R264: the digit rotates, on the digits of A and of the byte at HL (D18). -/
def Obligations.DigitRotates : Prop :=
  Does .rrd (fun s => .byte s.main.hl :: .reg .a :: incFlags) (fun s t =>
    let a := s.main.a.toNat
    let m := (s.readByte s.main.hl).toNat
    (t.readByte s.main.hl).toNat = a % 16 * 16 + m / 16 ∧ t.main.a.toNat = a / 16 * 16 + m % 16 ∧
    SignZero t t.main.a ∧ EvenParity t t.main.a ∧ HalfAndSubtractClear t) ∧
  Does .rld (fun s => .byte s.main.hl :: .reg .a :: incFlags) (fun s t =>
    let a := s.main.a.toNat
    let m := (s.readByte s.main.hl).toNat
    (t.readByte s.main.hl).toNat = m % 16 * 16 + a % 16 ∧ t.main.a.toNat = a / 16 * 16 + m / 16 ∧
    SignZero t t.main.a ∧ EvenParity t t.main.a ∧ HalfAndSubtractClear t)

/-- R98, R113, R258, R344: an unknown sub-opcode is recorded as ignored, and nothing else changes (D1, D6, D20; the event's
address is log entry 3). -/
def Obligations.UnknownSubOpcodes : Prop :=
  (∀ z : Fin 8, Does (.unknownCb z) (fun _ => [.events]) fun s t =>
    t.events = s.events ++ [.ignored .cb (BitVec.ofNat 8 (0x30 + z.val)) (s.pc - 1)]) ∧
  (∀ x d n, Does (.unknownIndexCb x d n) (fun _ => [.events]) fun s t =>
    t.events = s.events ++ [.ignored .cb n (s.pc - 1)]) ∧
  (∀ x d, Does (.unknownIndexCb36 x d) (fun _ => [.events]) fun s t =>
    t.events = s.events ++ [.ignored .cb 0x36 (s.pc - 1)]) ∧
  (∀ n, Does (.unknownEd n) (fun _ => [.events]) fun s t => t.events = s.events ++ [.ignored .ed n (s.pc - 1)])

/-! ## Control flow -/

/-- R281, R283: `JP nn`, `JP (HL)`, `JP (IX)`, `JP (IY)`: encoding, target, frame; no memory is read and no displacement
byte is consumed. -/
def Obligations.AbsoluteJumps : Prop :=
  (∀ l h, DecodesTo [0xC3, l, h] (.jpNn (pair h l))) ∧ DecodesTo [0xE9] .jpHl ∧ DecodesTo [0xDD, 0xE9] (.jpXy .ix) ∧
  DecodesTo [0xFD, 0xE9] (.jpXy .iy) ∧
  (∀ nn, Does (.jpNn nn) (fun _ => [.pc]) fun _ t => t.pc = nn) ∧
  Does .jpHl (fun _ => [.pc]) (fun s t => t.pc = s.main.hl) ∧
  (∀ x, Does (.jpXy x) (fun _ => [.pc]) fun s t => t.pc = s.xy x)

/-- R280, R282, R284 to R286: the conditional and relative jumps, taken and not taken, and their frame. -/
def Obligations.ConditionalAndRelativeJumps : Prop :=
  (∀ cc nn, DoesWhen (fun s => CondTrue s cc) (.jpCcNn cc nn) (fun _ => [.pc]) fun _ t => t.pc = nn) ∧
  (∀ cc nn, DoesWhen (fun s => ¬CondTrue s cc) (.jpCcNn cc nn) (fun _ => []) fun _ _ => True) ∧
  (∀ e, Does (.jr e) (fun _ => [.pc]) (MovesPc e)) ∧
  (∀ cc e, DoesWhen (fun s => CondTrue s (jrCond cc)) (.jrCc cc e) (fun _ => [.pc]) (MovesPc e)) ∧
  (∀ cc e, DoesWhen (fun s => ¬CondTrue s (jrCond cc)) (.jrCc cc e) (fun _ => []) fun _ _ => True) ∧
  (∀ e, DoesWhen (fun s => s.main.b ≠ 1) (.djnz e) (fun _ => [.reg .b, .pc]) fun s t =>
    t.main.b = s.main.b - 1 ∧ MovesPc e s t) ∧
  (∀ e, DoesWhen (fun s => s.main.b = 1) (.djnz e) (fun _ => [.reg .b]) fun _ t => t.main.b = 0)

/-- R287, R288, R291: the calls where there is room, and their frame; not taken, nothing changes. -/
def Obligations.Calls : Prop :=
  (∀ nn, DoesWhen RoomToPush (.callNn nn) (fun s => .pc :: pushParts s) fun s t => t.pc = nn ∧ Pushes s.pc s t) ∧
  (∀ cc nn, DoesWhen (fun s => CondTrue s cc ∧ RoomToPush s) (.callCcNn cc nn) (fun s => .pc :: pushParts s) fun s t =>
    t.pc = nn ∧ Pushes s.pc s t) ∧
  (∀ cc nn, DoesWhen (fun s => ¬CondTrue s cc) (.callCcNn cc nn) (fun _ => []) fun _ _ => True) ∧
  (∀ n : Fin 8, DoesWhen RoomToPush (.rst n) (fun s => .pc :: pushParts s) fun s t =>
    t.pc.toNat = 8 * n.val ∧ Pushes s.pc s t)

/-- R289, R290, R292, R293: the returns where there is room, and their frame; only `RETN` writes iff1. -/
def Obligations.Returns : Prop :=
  DoesWhen RoomToPop .ret (fun _ => [.pc, .sp]) (fun s t => t.pc = topWord s ∧ t.sp = s.sp + 2) ∧
  (∀ cc, DoesWhen (fun s => CondTrue s cc ∧ RoomToPop s) (.retCc cc) (fun _ => [.pc, .sp]) fun s t =>
    t.pc = topWord s ∧ t.sp = s.sp + 2) ∧
  (∀ cc, DoesWhen (fun s => ¬CondTrue s cc) (.retCc cc) (fun _ => []) fun _ _ => True) ∧
  DoesWhen RoomToPop .reti (fun _ => [.pc, .sp]) (fun s t => t.pc = topWord s ∧ t.sp = s.sp + 2) ∧
  DoesWhen RoomToPop .retn (fun _ => [.pc, .sp, .iff1]) (fun s t =>
    t.pc = topWord s ∧ t.sp = s.sp + 2 ∧ t.iff1 = s.iff2)

/-! ## Block instructions -/

/-- R311, R312, R315, R316: one block move and one comparison: pointers, counter, byte, flags (D17), frame. -/
def Obligations.BlockMoveAndCompare : Prop :=
  let moved (step : Word → Word) (s t : State) : Prop :=
    t.readByte s.main.de = s.readByte s.main.hl ∧ t.main.hl = step s.main.hl ∧ t.main.de = step s.main.de ∧
    t.main.bc = s.main.bc - 1 ∧ (t.flag .pv = true ↔ t.main.bc ≠ 0) ∧ HalfAndSubtractClear t
  let compared (step : Word → Word) (s t : State) : Prop :=
    let a := s.main.a.toNat
    let m := (s.readByte s.main.hl).toNat
    t.main.hl = step s.main.hl ∧ t.main.bc = s.main.bc - 1 ∧ (t.flag .pv = true ↔ t.main.bc ≠ 0) ∧
    (t.flag .z = true ↔ a = m) ∧ (t.flag .s = true ↔ 128 ≤ ((a : Int) - m) % 256) ∧
    (t.flag .h = true ↔ a % 16 < m % 16) ∧ t.flag .n = true
  let moveParts (s : State) : List Part :=
    pairParts .hl ++ pairParts .de ++ pairParts .bc ++ ([.byte s.main.de, .flag .pv, .flag .h, .flag .n] : List Part)
  let compareParts : List Part := pairParts .hl ++ pairParts .bc ++ incFlags
  Does .ldi moveParts (moved (· + 1)) ∧ Does .ldd moveParts (moved (· - 1)) ∧
  Does .cpi (fun _ => compareParts) (compared (· + 1)) ∧ Does .cpd (fun _ => compareParts) (compared (· - 1))

/-- R319, R320, R323, R324: one block input and one block output: port call, byte, pointer, counter, flags (D17), frame.
The port call is that of R71, R72, R437, R485; what a handler answers, its peripheral state and the reply script are the
model's choice (log entry 2). -/
def Obligations.BlockInputOutput : Prop :=
  let counted (step : Word → Word) (s t : State) : Prop :=
    t.main.hl = step s.main.hl ∧ t.main.b = s.main.b - 1 ∧ (t.flag .z = true ↔ t.main.b = 0) ∧ t.flag .n = true
  let ioParts : List Part := pairParts .hl ++ ([.reg .b, .flag .z, .flag .n] : List Part) ++ portParts
  let input (step : Word → Word) (s t : State) : Prop :=
    ReadsPort s.main.c (t.readByte s.main.hl) s t ∧ counted step s t
  let output (step : Word → Word) (s t : State) : Prop :=
    WritesPort s.main.c (s.readByte s.main.hl) s t ∧ counted step s t
  Does .ini (fun s => .byte s.main.hl :: ioParts) (input (· + 1)) ∧
  Does .ind (fun s => .byte s.main.hl :: ioParts) (input (· - 1)) ∧
  Does .outi (fun _ => ioParts) (output (· + 1)) ∧ Does .outd (fun _ => ioParts) (output (· - 1))

/-- R313, R314, R317, R318, R321, R322, R325 to R328: every repeating form is its single form run in one step until its
end, within its bound (D16). -/
def Obligations.RepeatingForms : Prop :=
  Repeats .ldir .ldi (fun t => t.main.bc = 0) 65536 ∧ Repeats .lddr .ldd (fun t => t.main.bc = 0) 65536 ∧
  Repeats .cpir .cpi (fun t => t.main.bc = 0 ∨ t.flag .z = true) 65536 ∧
  Repeats .cpdr .cpd (fun t => t.main.bc = 0 ∨ t.flag .z = true) 65536 ∧
  Repeats .inir .ini (fun t => t.main.b = 0) 256 ∧ Repeats .indr .ind (fun t => t.main.b = 0) 256 ∧
  Repeats .otir .outi (fun t => t.main.b = 0) 256 ∧ Repeats .otdr .outd (fun t => t.main.b = 0) 256

/-- R313 (the source's property P7): `LDIR` with BC = N of 1 or more copies exactly N bytes, where source and destination
do not overlap. -/
def Obligations.LdirCopies : Prop :=
  ∀ (s : State) (n : Nat), s.main.bc.toNat = n → 1 ≤ n →
    (∀ j k, j < n → k < n → s.main.hl + BitVec.ofNat 16 j ≠ s.main.de + BitVec.ofNat 16 k) →
    ∃ t, exec .ldir s = .next t ∧ t.main.bc = 0 ∧ t.main.hl = s.main.hl + BitVec.ofNat 16 n ∧
      t.main.de = s.main.de + BitVec.ofNat 16 n ∧ t.flag .pv = false ∧
      (∀ k < n, t.readByte (s.main.de + BitVec.ofNat 16 k) = s.readByte (s.main.hl + BitVec.ofNat 16 k)) ∧
      OnlyChanges (pairParts .hl ++ pairParts .de ++ pairParts .bc ++ ([.flag .pv, .flag .h, .flag .n] : List Part) ++
        ((List.range n).map fun k => Part.byte (s.main.de + BitVec.ofNat 16 k))) s t

/-! ## Ports and CPU control -/

/-- R71 to R73, R340 to R343, R485: port input and output, mapped and unmapped, with the handler's interrupt request (R437),
and the frame; the last registration for a port wins (D23). The flags of `IN r,(C)` are decision D18 (log entry 9); what a
handler answers is free (log entry 2). -/
def Obligations.PortInputOutput : Prop :=
  (∀ n, Does (.inAN n) (fun _ => .reg .a :: portParts) fun s t => ReadsPort n t.main.a s t) ∧
  (∀ n, Does (.outNA n) (fun _ => portParts) fun s t => WritesPort n s.main.a s t) ∧
  (∀ r, Does (.inRC r) (fun _ => .reg r :: incFlags ++ portParts) fun s t =>
    ReadsPort s.main.c (t.reg r) s t ∧ SignZero t (t.reg r) ∧ EvenParity t (t.reg r) ∧ HalfAndSubtractClear t) ∧
  (∀ r, Does (.outCR r) (fun _ => portParts) fun s t => WritesPort s.main.c (s.reg r) s t) ∧
  ∀ (s : State) (p : Byte) (fn : Nat),
    LastRegistrationWins p fn s.cfg.inPorts (s.registerIn p fn).cfg.inPorts ∧
    LastRegistrationWins p fn s.cfg.outPorts (s.registerOut p fn).cfg.outPorts ∧
    (s.registerIn p fn).cfg.outPorts = s.cfg.outPorts ∧ (s.registerOut p fn).cfg.inPorts = s.cfg.inPorts ∧
    ∀ t ∈ [s.registerIn p fn, s.registerOut p fn],
      t.cfg.unimplemented = s.cfg.unimplemented ∧ OnlyChanges [.config] s t

/-- R348 to R350, R352: `NOP`, `HALT`, `EI`, `IM 0/1/2`, and their frame (PC stays behind a HALT: D28). -/
def Obligations.CpuControl : Prop :=
  Does .nop (fun _ => []) (fun _ _ => True) ∧
  Does .halt (fun _ => [.halted]) (fun _ t => t.halted = true) ∧
  Does .ei (fun _ => [.iff1, .iff2]) (fun _ t => t.iff1 = true ∧ t.iff2 = true) ∧
  Does .im0 (fun _ => [.im]) (fun _ t => t.im = .im0) ∧ Does .im1 (fun _ => [.im]) (fun _ t => t.im = .im1) ∧
  Does .im2 (fun _ => [.im]) (fun _ t => t.im = .im2)

/-- R351: `DI`: encoding, effect, frame: the latch is not cleared. -/
def Obligations.DisableInterrupts : Prop :=
  DecodesTo [0xF3] .di ∧
  Does .di (fun _ => [.iff1, .iff2]) (fun _ t => t.iff1 = false ∧ t.iff2 = false)

/-- R93, R95, R99: a prefix byte selects the index register or the page for the bytes after it and changes nothing else;
the last index prefix counts (the page tag is log entry 6). -/
def Obligations.PrefixBytes : Prop :=
  Does .prefixDD (fun _ => [.tags]) (fun _ t => t.prefixTag = .ix ∧ t.page = .main) ∧
  Does .prefixFD (fun _ => [.tags]) (fun _ t => t.prefixTag = .iy ∧ t.page = .main) ∧
  Does .prefixCB (fun _ => [.tags]) (fun s t => t.prefixTag = s.prefixTag ∧ t.page = .cb) ∧
  Does .prefixED (fun _ => [.tags]) (fun s t => t.prefixTag = s.prefixTag ∧ t.page = .ed)

/-- R117: a DD/FD before an opcode it does not affect: the same outcome as without it, and a next state wherever the stack
has room both ways. -/
def Obligations.PrefixWithoutEffect : Prop :=
  ∀ (x : Idx) (i : Instr), i.prefixWithoutEffect = true → PrefixChangesNothing i ∧
    ∀ s, RoomToPush s → RoomToPop s → ∃ t, exec (.pOp x i) s = .next t ∧ exec i s = .next t

/-! ## The step -/

/-- R30, R93, R436: when the bytes at PC decode to an instruction, the step is `exec` of it with PC past its bytes and the
prefix tag cleared, prefixes and instruction in one step. -/
def Obligations.StepRunsDecoded : Prop :=
  ∀ (s : State) (n len : Nat) (i : Instr) (b : Byte), ReachesDecode s → n ≤ 65536 →
    decode (s.bytesFrom n s.pc) = some (i, len) →
    ((s.bytesFrom n s.pc).find? fun c => c != 0xDD && c != 0xFD) = some b → b ∉ s.cfg.unimplemented →
    step s = exec i { s with pc := s.pc + BitVec.ofNat 16 len, prefixTag := .none, page := .main }

/-- R114, R434: a primary opcode outside `IMPLEMENTED_PRIMARY`, behind any index prefixes, halts the CPU with the byte and
its address; PC is past it and nothing else changes (D2, D12). R115: memory of prefix bytes only is a hang, reported as
`prefixRun` without a state (D21). -/
def Obligations.DecodeFaults : Prop :=
  (∀ (s : State) (k : Nat) (b : Byte), ReachesDecode s → k < 65536 →
      (∀ j < k, IsPrefix (s.readByte (s.pc + BitVec.ofNat 16 j))) → s.readByte (s.pc + BitVec.ofNat 16 k) = b →
      ¬IsPrefix b → b ∈ s.cfg.unimplemented →
      ∃ t, step s = .fault (.unknownOpcode b (s.pc + BitVec.ofNat 16 k) t) ∧ t.halted = true ∧
        t.fault = some (.unknownOpcode b (s.pc + BitVec.ofNat 16 k)) ∧ t.pc = s.pc + BitVec.ofNat 16 (k + 1) ∧
        OnlyChanges [.pc, .halted, .fault, .tags] s t) ∧
  (∀ s : State, ReachesDecode s → (∀ a, IsPrefix (s.readByte a)) → step s = .fault .prefixRun)

/-- R438, R439, R441: an eligible request is acknowledged at the step's entry, whatever `im` is and whether or not the CPU
is halted: PC pushed, PC at 0x0038, iff1, the latch and `halted` cleared, nothing else changed (D13, D14). R440: where the
push faults, iff1 and the latch are cleared already and PC is the interrupted address. -/
def Obligations.InterruptAcknowledge : Prop :=
  (∀ s : State, s.fault = none → s.pending = true → s.iff1 = true → RoomToPush s →
      ∃ t, step s = .next t ∧ t.pc = 0x0038 ∧ t.iff1 = false ∧ t.pending = false ∧ t.halted = false ∧ Pushes s.pc s t ∧
        OnlyChanges (([.pc, .iff1, .pending, .halted, .tags] : List Part) ++ pushParts s) s t) ∧
  (∀ s : State, s.fault = none → s.pending = true → s.iff1 = true → s.sp.toNat < 2 →
      ∃ t, step s = .fault (.stackOutOfRange t) ∧ t.fault = some .stackOutOfRange ∧ t.halted = true ∧ t.iff1 = false ∧
        t.pending = false ∧ t.sp = 0 ∧ (s.sp = 1 → t.readByte 0 = hi s.pc) ∧
        OnlyChanges (([.iff1, .pending, .halted, .fault, .tags] : List Part) ++ (if s.sp = 1 then [Part.sp, Part.byte 0] else [])) s t)

/-- R436, R438, R442, R484: the order at a step's entry: a latched fault first, then an eligible interrupt, which is
acknowledged whether or not the CPU is halted, then the halted no-op; a halted step changes nothing. R435: nothing but
`reset()` takes the machine out of a latched fault, and a faulted step changes no state (D12, D25). -/
def Obligations.StepEntryOrder : Prop :=
  (∀ s : State,
      (∀ c, s.fault = some c → step s = .fault (c.outcome s)) ∧
      (s.fault = none → s.pending = true → s.iff1 = true →
        step s = acknowledge { s with prefixTag := .none, page := .main }) ∧
      (s.fault = none → s.halted = true → ¬(s.pending = true ∧ s.iff1 = true) →
        ∃ t, step s = .next t ∧ OnlyChanges [.tags] s t)) ∧
  (∀ (s : State) (c : FaultCause) (call : EmbedderCall) (t : State), s.fault = some c → s.afterCall call = some t →
      (call = .reset → t.fault = none) ∧ (call ≠ .reset → t.fault = some c) ∧ (call = .step → t = s))

/-- R437: `interrupt()` latches the request and wakes a halted CPU whose interrupts are enabled; a request made while they
are disabled is acknowledged by the step after the `EI` (R480). -/
def Obligations.InterruptRequest : Prop :=
  ∀ s : State,
    (s.interrupt.pending = true ∧ (s.interrupt.halted = true ↔ s.halted = true ∧ s.iff1 = false) ∧
      OnlyChanges [.pending, .halted] s s.interrupt) ∧
    (s.fault = none → RoomToPush s →
      ∃ t u, exec .ei s.interrupt = .next t ∧ step t = .next u ∧ u.pc = 0x0038 ∧ Pushes s.pc s u)

/-- R39, R46, R439, C6: the invariant is kept by every step that answers a next state. -/
def Obligations.StepKeepsInvariant : Prop :=
  ∀ s t : State, Inv s → step s = .next t → Inv t

/-- The invariant at reset. -/
def Obligations.ResetMeetsInvariant : Prop := Inv State.reset

/-- R431, R434, R435: a step from a state that meets the invariant either goes on, or leaves a halted state with the fault
latched and memory still in its canonical form (the model's own: log entry 16), or hangs in a run of prefix bytes (R115,
decision D21; the outcome `prefixRun` is log entry 5); it never refuses. -/
def Obligations.StepOutcomes : Prop :=
  ∀ s : State, Inv s →
    (∃ t, step s = .next t) ∨
    (∃ (t : State) (c : FaultCause), step s = .fault (c.outcome t) ∧ t.fault = some c ∧ t.halted = true ∧ Memory.wf t.mem = true) ∨
    step s = .fault .prefixRun

/-- R25, R130, R209, R235, R430: an instruction completes, or it is one of those that do arithmetic on SP and the stack
fault is its only other outcome. -/
def Obligations.OnlyStackFaults : Prop :=
  ∀ (i : Instr) (s : State), i.WellFormed →
    (∃ t, exec i s = .next t) ∨
    (usesStack (bareInstr i) = true ∧ ∃ t, exec i s = .fault (.stackOutOfRange t) ∧ t.fault = some .stackOutOfRange ∧
      t.halted = true)

/-- R22, R32 to R39, R42: who writes what, over all instructions: I, R, im, iff1, iff2, the shadow registers, `halted`,
the latch, the fault, the configuration, the history. -/
def Obligations.WhoWritesWhat : Prop :=
  ∀ (i : Instr) (s t : State), exec i s = .next t →
    (bareInstr i ≠ .ldIA → Same s t .regI) ∧ (bareInstr i ≠ .ldRA → Same s t .regR) ∧
    (bareInstr i ∉ [Instr.im0, .im1, .im2] → Same s t .im) ∧ (bareInstr i ∉ [Instr.ei, .di, .retn] → Same s t .iff1) ∧
    (bareInstr i ∉ [Instr.ei, .di] → Same s t .iff2) ∧
    (bareInstr i ∉ [Instr.exx, .exAfAf] → t.shadow = s.shadow) ∧
    (t.halted = true → s.halted = true ∨ bareInstr i = .halt) ∧ (s.pending = true → t.pending = true) ∧
    Same s t .fault ∧ Same s t .config ∧ s.events <+: t.events

/-- R28: Y and X are changed only by the accumulator operations, `NEG`, `POP AF` and `EX AF,AF'` (D7). -/
def Obligations.UndocumentedFlagsKept : Prop :=
  ∀ (i : Instr) (s t : State), exec i s = .next t → writesYX (bareInstr i) = false → Same s t (.flag .y) ∧ Same s t (.flag .x)

/-! ## The embedder -/

/-- R474: reset from any state gives the same registers, latches and flip-flops, a latched request lost. -/
def Obligations.ResetFromAnyState : Prop :=
  ∀ s : State,
    (∀ r, s.cpuReset.reg r = 0 ∧ s.cpuReset.shadow.get r = 0) ∧ s.cpuReset.main.f = 0 ∧ s.cpuReset.shadow.f = 0 ∧
    s.cpuReset.ix = 0 ∧ s.cpuReset.iy = 0 ∧ s.cpuReset.pc = 0 ∧ s.cpuReset.sp = 0xFFFF ∧ s.cpuReset.regI = 0 ∧
    s.cpuReset.regR = 0 ∧ s.cpuReset.iff1 = false ∧ s.cpuReset.iff2 = false ∧ s.cpuReset.im = .im0 ∧
    s.cpuReset.halted = false ∧ s.cpuReset.pending = false ∧ s.cpuReset.prefixTag = .none ∧ s.cpuReset.fault = none

/-- R65: the memory reset fills the whole array with 0 and touches nothing else. R471 (decision D24): the CPU reset leaves
memory alone. -/
def Obligations.MemoryReset : Prop :=
  ∀ (s : State) (a : Word), s.memReset.readByte a = 0 ∧ s.cpuReset.readByte a = s.readByte a ∧
    ∀ p, (∀ b, p ≠ .byte b) → Same s s.memReset p

/-! ## The assembler -/

/-- R411, R418: every instruction the assembler selects is a whole one that the CPU decodes back from its bytes, and none
of the forms it never emits. -/
def Obligations.AssemblerSelectsDecodable : Prop :=
  ∀ (env : AsmEnv) (mnemonic : String) (ops : List AsmOperand) (i : Instr), env.select mnemonic ops = .ok i →
    DecodesTo (encode i) i ∧ neverEmitted i = false

/-- R387: tolerant mode is sound: the length of what is selected depends neither on the mode nor on the symbols' values nor
on the address. -/
def Obligations.AssemblerLengthIsFixed : Prop :=
  ∀ (env env' : AsmEnv) (mnemonic : String) (ops : List AsmOperand) (i j : Instr),
    env.select mnemonic ops = .ok i → env'.select mnemonic ops = .ok j → (encode i).length = (encode j).length

/-- R284, R389, R414 (the source's property P6): a JR, JR cc or DJNZ accepted at address `a` for target `t` is that
instruction with an offset `e` with `a + 2 + sext_8(e) = t`; exactly the offsets outside -128..127 are refused, with the
offset. (The target is an expression, or for JR and DJNZ without a condition the label `L`: log entry 11.) -/
def Obligations.AssembledRelativeJump : Prop :=
  ∀ (env : AsmEnv) (o : AsmOperand) (e : AsmExpr) (target : Int), env.strict = true → relTargetOf o = some e →
    env.value e = .ok target →
    SelectsOffset env "JR" [o] .jr target ∧
    (∀ cj, SelectsOffset env "JR" [.cond (jrCond cj), .immediate e] (.jrCc cj) target) ∧
    SelectsOffset env "DJNZ" [o] .djnz target

/-- R388, R400: the image is as long as the high-water mark, holds the last emission's bytes at its address, and reads 0
where nothing was emitted. -/
def Obligations.AssemblerImage : Prop :=
  ∀ (labels : AsmLabels) (es : List AsmEmission) (e : AsmEmission),
    (AsmOutput.ofEmissions labels es).image.length = highWater 0 es ∧
    (∀ (k : Nat) (h : k < e.bytes.length),
      (AsmOutput.ofEmissions labels (es ++ [e])).image[e.addr + k]? = some e.bytes[k]) ∧
    (∀ a < highWater 0 es, (∀ f ∈ es, a < f.addr ∨ f.addr + f.bytes.length ≤ a) →
      (AsmOutput.ofEmissions labels es).image[a]? = some 0)
end

