-- ==== Sys2Proof/Laws/State.lean ====
section
/-! SUPPORT. One lemma per field per update of the state, so that no proof unfolds a record update. -/

namespace Sys2Proof.Machine

variable (s : State)

/-! ## `setMain` -/

@[simp] theorem State.setMain_main (k : Bank) : (s.setMain k).main = k := rfl
@[simp] theorem State.setMain_shadow (k : Bank) : (s.setMain k).shadow = s.shadow := rfl
@[simp] theorem State.setMain_ix (k : Bank) : (s.setMain k).ix = s.ix := rfl
@[simp] theorem State.setMain_iy (k : Bank) : (s.setMain k).iy = s.iy := rfl
@[simp] theorem State.setMain_sp (k : Bank) : (s.setMain k).sp = s.sp := rfl
@[simp] theorem State.setMain_pc (k : Bank) : (s.setMain k).pc = s.pc := rfl
@[simp] theorem State.setMain_regI (k : Bank) : (s.setMain k).regI = s.regI := rfl
@[simp] theorem State.setMain_regR (k : Bank) : (s.setMain k).regR = s.regR := rfl
@[simp] theorem State.setMain_iff1 (k : Bank) : (s.setMain k).iff1 = s.iff1 := rfl
@[simp] theorem State.setMain_iff2 (k : Bank) : (s.setMain k).iff2 = s.iff2 := rfl
@[simp] theorem State.setMain_im (k : Bank) : (s.setMain k).im = s.im := rfl
@[simp] theorem State.setMain_halted (k : Bank) : (s.setMain k).halted = s.halted := rfl
@[simp] theorem State.setMain_pending (k : Bank) : (s.setMain k).pending = s.pending := rfl
@[simp] theorem State.setMain_prefixTag (k : Bank) : (s.setMain k).prefixTag = s.prefixTag := rfl
@[simp] theorem State.setMain_page (k : Bank) : (s.setMain k).page = s.page := rfl
@[simp] theorem State.setMain_fault (k : Bank) : (s.setMain k).fault = s.fault := rfl
@[simp] theorem State.setMain_mem (k : Bank) : (s.setMain k).mem = s.mem := rfl
@[simp] theorem State.setMain_cfg (k : Bank) : (s.setMain k).cfg = s.cfg := rfl
@[simp] theorem State.setMain_events (k : Bank) : (s.setMain k).events = s.events := rfl
@[simp] theorem State.setMain_peripheral (k : Bank) : (s.setMain k).peripheral = s.peripheral := rfl
@[simp] theorem State.setMain_replies (k : Bank) : (s.setMain k).replies = s.replies := rfl

/-! ## `setPc` -/

@[simp] theorem State.setPc_main (v : Word) : (s.setPc v).main = s.main := rfl
@[simp] theorem State.setPc_shadow (v : Word) : (s.setPc v).shadow = s.shadow := rfl
@[simp] theorem State.setPc_ix (v : Word) : (s.setPc v).ix = s.ix := rfl
@[simp] theorem State.setPc_iy (v : Word) : (s.setPc v).iy = s.iy := rfl
@[simp] theorem State.setPc_sp (v : Word) : (s.setPc v).sp = s.sp := rfl
@[simp] theorem State.setPc_pc (v : Word) : (s.setPc v).pc = v := rfl
@[simp] theorem State.setPc_regI (v : Word) : (s.setPc v).regI = s.regI := rfl
@[simp] theorem State.setPc_regR (v : Word) : (s.setPc v).regR = s.regR := rfl
@[simp] theorem State.setPc_iff1 (v : Word) : (s.setPc v).iff1 = s.iff1 := rfl
@[simp] theorem State.setPc_iff2 (v : Word) : (s.setPc v).iff2 = s.iff2 := rfl
@[simp] theorem State.setPc_im (v : Word) : (s.setPc v).im = s.im := rfl
@[simp] theorem State.setPc_halted (v : Word) : (s.setPc v).halted = s.halted := rfl
@[simp] theorem State.setPc_pending (v : Word) : (s.setPc v).pending = s.pending := rfl
@[simp] theorem State.setPc_prefixTag (v : Word) : (s.setPc v).prefixTag = s.prefixTag := rfl
@[simp] theorem State.setPc_page (v : Word) : (s.setPc v).page = s.page := rfl
@[simp] theorem State.setPc_fault (v : Word) : (s.setPc v).fault = s.fault := rfl
@[simp] theorem State.setPc_mem (v : Word) : (s.setPc v).mem = s.mem := rfl
@[simp] theorem State.setPc_cfg (v : Word) : (s.setPc v).cfg = s.cfg := rfl
@[simp] theorem State.setPc_events (v : Word) : (s.setPc v).events = s.events := rfl
@[simp] theorem State.setPc_peripheral (v : Word) : (s.setPc v).peripheral = s.peripheral := rfl
@[simp] theorem State.setPc_replies (v : Word) : (s.setPc v).replies = s.replies := rfl

/-! ## `setSp` -/

@[simp] theorem State.setSp_main (v : Word) : (s.setSp v).main = s.main := rfl
@[simp] theorem State.setSp_shadow (v : Word) : (s.setSp v).shadow = s.shadow := rfl
@[simp] theorem State.setSp_ix (v : Word) : (s.setSp v).ix = s.ix := rfl
@[simp] theorem State.setSp_iy (v : Word) : (s.setSp v).iy = s.iy := rfl
@[simp] theorem State.setSp_sp (v : Word) : (s.setSp v).sp = v := rfl
@[simp] theorem State.setSp_pc (v : Word) : (s.setSp v).pc = s.pc := rfl
@[simp] theorem State.setSp_regI (v : Word) : (s.setSp v).regI = s.regI := rfl
@[simp] theorem State.setSp_regR (v : Word) : (s.setSp v).regR = s.regR := rfl
@[simp] theorem State.setSp_iff1 (v : Word) : (s.setSp v).iff1 = s.iff1 := rfl
@[simp] theorem State.setSp_iff2 (v : Word) : (s.setSp v).iff2 = s.iff2 := rfl
@[simp] theorem State.setSp_im (v : Word) : (s.setSp v).im = s.im := rfl
@[simp] theorem State.setSp_halted (v : Word) : (s.setSp v).halted = s.halted := rfl
@[simp] theorem State.setSp_pending (v : Word) : (s.setSp v).pending = s.pending := rfl
@[simp] theorem State.setSp_prefixTag (v : Word) : (s.setSp v).prefixTag = s.prefixTag := rfl
@[simp] theorem State.setSp_page (v : Word) : (s.setSp v).page = s.page := rfl
@[simp] theorem State.setSp_fault (v : Word) : (s.setSp v).fault = s.fault := rfl
@[simp] theorem State.setSp_mem (v : Word) : (s.setSp v).mem = s.mem := rfl
@[simp] theorem State.setSp_cfg (v : Word) : (s.setSp v).cfg = s.cfg := rfl
@[simp] theorem State.setSp_events (v : Word) : (s.setSp v).events = s.events := rfl
@[simp] theorem State.setSp_peripheral (v : Word) : (s.setSp v).peripheral = s.peripheral := rfl
@[simp] theorem State.setSp_replies (v : Word) : (s.setSp v).replies = s.replies := rfl

/-! ## `setReg` -/

@[simp] theorem State.setReg_main (r : Reg8) (v : Byte) : (s.setReg r v).main = s.main.set r v := rfl
@[simp] theorem State.setReg_shadow (r : Reg8) (v : Byte) : (s.setReg r v).shadow = s.shadow := rfl
@[simp] theorem State.setReg_ix (r : Reg8) (v : Byte) : (s.setReg r v).ix = s.ix := rfl
@[simp] theorem State.setReg_iy (r : Reg8) (v : Byte) : (s.setReg r v).iy = s.iy := rfl
@[simp] theorem State.setReg_sp (r : Reg8) (v : Byte) : (s.setReg r v).sp = s.sp := rfl
@[simp] theorem State.setReg_pc (r : Reg8) (v : Byte) : (s.setReg r v).pc = s.pc := rfl
@[simp] theorem State.setReg_regI (r : Reg8) (v : Byte) : (s.setReg r v).regI = s.regI := rfl
@[simp] theorem State.setReg_regR (r : Reg8) (v : Byte) : (s.setReg r v).regR = s.regR := rfl
@[simp] theorem State.setReg_iff1 (r : Reg8) (v : Byte) : (s.setReg r v).iff1 = s.iff1 := rfl
@[simp] theorem State.setReg_iff2 (r : Reg8) (v : Byte) : (s.setReg r v).iff2 = s.iff2 := rfl
@[simp] theorem State.setReg_im (r : Reg8) (v : Byte) : (s.setReg r v).im = s.im := rfl
@[simp] theorem State.setReg_halted (r : Reg8) (v : Byte) : (s.setReg r v).halted = s.halted := rfl
@[simp] theorem State.setReg_pending (r : Reg8) (v : Byte) : (s.setReg r v).pending = s.pending := rfl
@[simp] theorem State.setReg_prefixTag (r : Reg8) (v : Byte) : (s.setReg r v).prefixTag = s.prefixTag := rfl
@[simp] theorem State.setReg_page (r : Reg8) (v : Byte) : (s.setReg r v).page = s.page := rfl
@[simp] theorem State.setReg_fault (r : Reg8) (v : Byte) : (s.setReg r v).fault = s.fault := rfl
@[simp] theorem State.setReg_mem (r : Reg8) (v : Byte) : (s.setReg r v).mem = s.mem := rfl
@[simp] theorem State.setReg_cfg (r : Reg8) (v : Byte) : (s.setReg r v).cfg = s.cfg := rfl
@[simp] theorem State.setReg_events (r : Reg8) (v : Byte) : (s.setReg r v).events = s.events := rfl
@[simp] theorem State.setReg_peripheral (r : Reg8) (v : Byte) : (s.setReg r v).peripheral = s.peripheral := rfl
@[simp] theorem State.setReg_replies (r : Reg8) (v : Byte) : (s.setReg r v).replies = s.replies := rfl

/-! ## `setA` -/

@[simp] theorem State.setA_main (v : Byte) : (s.setA v).main = { s.main with a := v } := rfl
@[simp] theorem State.setA_shadow (v : Byte) : (s.setA v).shadow = s.shadow := rfl
@[simp] theorem State.setA_ix (v : Byte) : (s.setA v).ix = s.ix := rfl
@[simp] theorem State.setA_iy (v : Byte) : (s.setA v).iy = s.iy := rfl
@[simp] theorem State.setA_sp (v : Byte) : (s.setA v).sp = s.sp := rfl
@[simp] theorem State.setA_pc (v : Byte) : (s.setA v).pc = s.pc := rfl
@[simp] theorem State.setA_regI (v : Byte) : (s.setA v).regI = s.regI := rfl
@[simp] theorem State.setA_regR (v : Byte) : (s.setA v).regR = s.regR := rfl
@[simp] theorem State.setA_iff1 (v : Byte) : (s.setA v).iff1 = s.iff1 := rfl
@[simp] theorem State.setA_iff2 (v : Byte) : (s.setA v).iff2 = s.iff2 := rfl
@[simp] theorem State.setA_im (v : Byte) : (s.setA v).im = s.im := rfl
@[simp] theorem State.setA_halted (v : Byte) : (s.setA v).halted = s.halted := rfl
@[simp] theorem State.setA_pending (v : Byte) : (s.setA v).pending = s.pending := rfl
@[simp] theorem State.setA_prefixTag (v : Byte) : (s.setA v).prefixTag = s.prefixTag := rfl
@[simp] theorem State.setA_page (v : Byte) : (s.setA v).page = s.page := rfl
@[simp] theorem State.setA_fault (v : Byte) : (s.setA v).fault = s.fault := rfl
@[simp] theorem State.setA_mem (v : Byte) : (s.setA v).mem = s.mem := rfl
@[simp] theorem State.setA_cfg (v : Byte) : (s.setA v).cfg = s.cfg := rfl
@[simp] theorem State.setA_events (v : Byte) : (s.setA v).events = s.events := rfl
@[simp] theorem State.setA_peripheral (v : Byte) : (s.setA v).peripheral = s.peripheral := rfl
@[simp] theorem State.setA_replies (v : Byte) : (s.setA v).replies = s.replies := rfl

/-! ## `setF` -/

@[simp] theorem State.setF_main (v : Byte) : (s.setF v).main = { s.main with f := v } := rfl
@[simp] theorem State.setF_shadow (v : Byte) : (s.setF v).shadow = s.shadow := rfl
@[simp] theorem State.setF_ix (v : Byte) : (s.setF v).ix = s.ix := rfl
@[simp] theorem State.setF_iy (v : Byte) : (s.setF v).iy = s.iy := rfl
@[simp] theorem State.setF_sp (v : Byte) : (s.setF v).sp = s.sp := rfl
@[simp] theorem State.setF_pc (v : Byte) : (s.setF v).pc = s.pc := rfl
@[simp] theorem State.setF_regI (v : Byte) : (s.setF v).regI = s.regI := rfl
@[simp] theorem State.setF_regR (v : Byte) : (s.setF v).regR = s.regR := rfl
@[simp] theorem State.setF_iff1 (v : Byte) : (s.setF v).iff1 = s.iff1 := rfl
@[simp] theorem State.setF_iff2 (v : Byte) : (s.setF v).iff2 = s.iff2 := rfl
@[simp] theorem State.setF_im (v : Byte) : (s.setF v).im = s.im := rfl
@[simp] theorem State.setF_halted (v : Byte) : (s.setF v).halted = s.halted := rfl
@[simp] theorem State.setF_pending (v : Byte) : (s.setF v).pending = s.pending := rfl
@[simp] theorem State.setF_prefixTag (v : Byte) : (s.setF v).prefixTag = s.prefixTag := rfl
@[simp] theorem State.setF_page (v : Byte) : (s.setF v).page = s.page := rfl
@[simp] theorem State.setF_fault (v : Byte) : (s.setF v).fault = s.fault := rfl
@[simp] theorem State.setF_mem (v : Byte) : (s.setF v).mem = s.mem := rfl
@[simp] theorem State.setF_cfg (v : Byte) : (s.setF v).cfg = s.cfg := rfl
@[simp] theorem State.setF_events (v : Byte) : (s.setF v).events = s.events := rfl
@[simp] theorem State.setF_peripheral (v : Byte) : (s.setF v).peripheral = s.peripheral := rfl
@[simp] theorem State.setF_replies (v : Byte) : (s.setF v).replies = s.replies := rfl

/-! ## `setAF` -/

@[simp] theorem State.setAF_main (a f : Byte) : (s.setAF a f).main = { s.main with a := a, f := f } := rfl
@[simp] theorem State.setAF_shadow (a f : Byte) : (s.setAF a f).shadow = s.shadow := rfl
@[simp] theorem State.setAF_ix (a f : Byte) : (s.setAF a f).ix = s.ix := rfl
@[simp] theorem State.setAF_iy (a f : Byte) : (s.setAF a f).iy = s.iy := rfl
@[simp] theorem State.setAF_sp (a f : Byte) : (s.setAF a f).sp = s.sp := rfl
@[simp] theorem State.setAF_pc (a f : Byte) : (s.setAF a f).pc = s.pc := rfl
@[simp] theorem State.setAF_regI (a f : Byte) : (s.setAF a f).regI = s.regI := rfl
@[simp] theorem State.setAF_regR (a f : Byte) : (s.setAF a f).regR = s.regR := rfl
@[simp] theorem State.setAF_iff1 (a f : Byte) : (s.setAF a f).iff1 = s.iff1 := rfl
@[simp] theorem State.setAF_iff2 (a f : Byte) : (s.setAF a f).iff2 = s.iff2 := rfl
@[simp] theorem State.setAF_im (a f : Byte) : (s.setAF a f).im = s.im := rfl
@[simp] theorem State.setAF_halted (a f : Byte) : (s.setAF a f).halted = s.halted := rfl
@[simp] theorem State.setAF_pending (a f : Byte) : (s.setAF a f).pending = s.pending := rfl
@[simp] theorem State.setAF_prefixTag (a f : Byte) : (s.setAF a f).prefixTag = s.prefixTag := rfl
@[simp] theorem State.setAF_page (a f : Byte) : (s.setAF a f).page = s.page := rfl
@[simp] theorem State.setAF_fault (a f : Byte) : (s.setAF a f).fault = s.fault := rfl
@[simp] theorem State.setAF_mem (a f : Byte) : (s.setAF a f).mem = s.mem := rfl
@[simp] theorem State.setAF_cfg (a f : Byte) : (s.setAF a f).cfg = s.cfg := rfl
@[simp] theorem State.setAF_events (a f : Byte) : (s.setAF a f).events = s.events := rfl
@[simp] theorem State.setAF_peripheral (a f : Byte) : (s.setAF a f).peripheral = s.peripheral := rfl
@[simp] theorem State.setAF_replies (a f : Byte) : (s.setAF a f).replies = s.replies := rfl

/-! ## `setHl` -/

@[simp] theorem State.setHl_main (v : Word) : (s.setHl v).main = s.main.setHl v := rfl
@[simp] theorem State.setHl_shadow (v : Word) : (s.setHl v).shadow = s.shadow := rfl
@[simp] theorem State.setHl_ix (v : Word) : (s.setHl v).ix = s.ix := rfl
@[simp] theorem State.setHl_iy (v : Word) : (s.setHl v).iy = s.iy := rfl
@[simp] theorem State.setHl_sp (v : Word) : (s.setHl v).sp = s.sp := rfl
@[simp] theorem State.setHl_pc (v : Word) : (s.setHl v).pc = s.pc := rfl
@[simp] theorem State.setHl_regI (v : Word) : (s.setHl v).regI = s.regI := rfl
@[simp] theorem State.setHl_regR (v : Word) : (s.setHl v).regR = s.regR := rfl
@[simp] theorem State.setHl_iff1 (v : Word) : (s.setHl v).iff1 = s.iff1 := rfl
@[simp] theorem State.setHl_iff2 (v : Word) : (s.setHl v).iff2 = s.iff2 := rfl
@[simp] theorem State.setHl_im (v : Word) : (s.setHl v).im = s.im := rfl
@[simp] theorem State.setHl_halted (v : Word) : (s.setHl v).halted = s.halted := rfl
@[simp] theorem State.setHl_pending (v : Word) : (s.setHl v).pending = s.pending := rfl
@[simp] theorem State.setHl_prefixTag (v : Word) : (s.setHl v).prefixTag = s.prefixTag := rfl
@[simp] theorem State.setHl_page (v : Word) : (s.setHl v).page = s.page := rfl
@[simp] theorem State.setHl_fault (v : Word) : (s.setHl v).fault = s.fault := rfl
@[simp] theorem State.setHl_mem (v : Word) : (s.setHl v).mem = s.mem := rfl
@[simp] theorem State.setHl_cfg (v : Word) : (s.setHl v).cfg = s.cfg := rfl
@[simp] theorem State.setHl_events (v : Word) : (s.setHl v).events = s.events := rfl
@[simp] theorem State.setHl_peripheral (v : Word) : (s.setHl v).peripheral = s.peripheral := rfl
@[simp] theorem State.setHl_replies (v : Word) : (s.setHl v).replies = s.replies := rfl

/-! ## `setRp` -/

@[simp] theorem State.setRp_shadow (rp : Rp) (v : Word) : (s.setRp rp v).shadow = s.shadow := by cases rp <;> rfl
@[simp] theorem State.setRp_ix (rp : Rp) (v : Word) : (s.setRp rp v).ix = s.ix := by cases rp <;> rfl
@[simp] theorem State.setRp_iy (rp : Rp) (v : Word) : (s.setRp rp v).iy = s.iy := by cases rp <;> rfl
@[simp] theorem State.setRp_pc (rp : Rp) (v : Word) : (s.setRp rp v).pc = s.pc := by cases rp <;> rfl
@[simp] theorem State.setRp_regI (rp : Rp) (v : Word) : (s.setRp rp v).regI = s.regI := by cases rp <;> rfl
@[simp] theorem State.setRp_regR (rp : Rp) (v : Word) : (s.setRp rp v).regR = s.regR := by cases rp <;> rfl
@[simp] theorem State.setRp_iff1 (rp : Rp) (v : Word) : (s.setRp rp v).iff1 = s.iff1 := by cases rp <;> rfl
@[simp] theorem State.setRp_iff2 (rp : Rp) (v : Word) : (s.setRp rp v).iff2 = s.iff2 := by cases rp <;> rfl
@[simp] theorem State.setRp_im (rp : Rp) (v : Word) : (s.setRp rp v).im = s.im := by cases rp <;> rfl
@[simp] theorem State.setRp_halted (rp : Rp) (v : Word) : (s.setRp rp v).halted = s.halted := by cases rp <;> rfl
@[simp] theorem State.setRp_pending (rp : Rp) (v : Word) : (s.setRp rp v).pending = s.pending := by cases rp <;> rfl
@[simp] theorem State.setRp_prefixTag (rp : Rp) (v : Word) : (s.setRp rp v).prefixTag = s.prefixTag := by cases rp <;> rfl
@[simp] theorem State.setRp_page (rp : Rp) (v : Word) : (s.setRp rp v).page = s.page := by cases rp <;> rfl
@[simp] theorem State.setRp_fault (rp : Rp) (v : Word) : (s.setRp rp v).fault = s.fault := by cases rp <;> rfl
@[simp] theorem State.setRp_mem (rp : Rp) (v : Word) : (s.setRp rp v).mem = s.mem := by cases rp <;> rfl
@[simp] theorem State.setRp_cfg (rp : Rp) (v : Word) : (s.setRp rp v).cfg = s.cfg := by cases rp <;> rfl
@[simp] theorem State.setRp_events (rp : Rp) (v : Word) : (s.setRp rp v).events = s.events := by cases rp <;> rfl
@[simp] theorem State.setRp_peripheral (rp : Rp) (v : Word) : (s.setRp rp v).peripheral = s.peripheral := by cases rp <;> rfl
@[simp] theorem State.setRp_replies (rp : Rp) (v : Word) : (s.setRp rp v).replies = s.replies := by cases rp <;> rfl

/-! ## `setRp2` -/

@[simp] theorem State.setRp2_shadow (rp2 : Rp2) (v : Word) : (s.setRp2 rp2 v).shadow = s.shadow := by cases rp2 <;> rfl
@[simp] theorem State.setRp2_ix (rp2 : Rp2) (v : Word) : (s.setRp2 rp2 v).ix = s.ix := by cases rp2 <;> rfl
@[simp] theorem State.setRp2_iy (rp2 : Rp2) (v : Word) : (s.setRp2 rp2 v).iy = s.iy := by cases rp2 <;> rfl
@[simp] theorem State.setRp2_sp (rp2 : Rp2) (v : Word) : (s.setRp2 rp2 v).sp = s.sp := by cases rp2 <;> rfl
@[simp] theorem State.setRp2_pc (rp2 : Rp2) (v : Word) : (s.setRp2 rp2 v).pc = s.pc := by cases rp2 <;> rfl
@[simp] theorem State.setRp2_regI (rp2 : Rp2) (v : Word) : (s.setRp2 rp2 v).regI = s.regI := by cases rp2 <;> rfl
@[simp] theorem State.setRp2_regR (rp2 : Rp2) (v : Word) : (s.setRp2 rp2 v).regR = s.regR := by cases rp2 <;> rfl
@[simp] theorem State.setRp2_iff1 (rp2 : Rp2) (v : Word) : (s.setRp2 rp2 v).iff1 = s.iff1 := by cases rp2 <;> rfl
@[simp] theorem State.setRp2_iff2 (rp2 : Rp2) (v : Word) : (s.setRp2 rp2 v).iff2 = s.iff2 := by cases rp2 <;> rfl
@[simp] theorem State.setRp2_im (rp2 : Rp2) (v : Word) : (s.setRp2 rp2 v).im = s.im := by cases rp2 <;> rfl
@[simp] theorem State.setRp2_halted (rp2 : Rp2) (v : Word) : (s.setRp2 rp2 v).halted = s.halted := by cases rp2 <;> rfl
@[simp] theorem State.setRp2_pending (rp2 : Rp2) (v : Word) : (s.setRp2 rp2 v).pending = s.pending := by cases rp2 <;> rfl
@[simp] theorem State.setRp2_prefixTag (rp2 : Rp2) (v : Word) : (s.setRp2 rp2 v).prefixTag = s.prefixTag := by cases rp2 <;> rfl
@[simp] theorem State.setRp2_page (rp2 : Rp2) (v : Word) : (s.setRp2 rp2 v).page = s.page := by cases rp2 <;> rfl
@[simp] theorem State.setRp2_fault (rp2 : Rp2) (v : Word) : (s.setRp2 rp2 v).fault = s.fault := by cases rp2 <;> rfl
@[simp] theorem State.setRp2_mem (rp2 : Rp2) (v : Word) : (s.setRp2 rp2 v).mem = s.mem := by cases rp2 <;> rfl
@[simp] theorem State.setRp2_cfg (rp2 : Rp2) (v : Word) : (s.setRp2 rp2 v).cfg = s.cfg := by cases rp2 <;> rfl
@[simp] theorem State.setRp2_events (rp2 : Rp2) (v : Word) : (s.setRp2 rp2 v).events = s.events := by cases rp2 <;> rfl
@[simp] theorem State.setRp2_peripheral (rp2 : Rp2) (v : Word) : (s.setRp2 rp2 v).peripheral = s.peripheral := by cases rp2 <;> rfl
@[simp] theorem State.setRp2_replies (rp2 : Rp2) (v : Word) : (s.setRp2 rp2 v).replies = s.replies := by cases rp2 <;> rfl

/-! ## `setXy` -/

@[simp] theorem State.setXy_main (x : Idx) (v : Word) : (s.setXy x v).main = s.main := by cases x <;> rfl
@[simp] theorem State.setXy_shadow (x : Idx) (v : Word) : (s.setXy x v).shadow = s.shadow := by cases x <;> rfl
@[simp] theorem State.setXy_sp (x : Idx) (v : Word) : (s.setXy x v).sp = s.sp := by cases x <;> rfl
@[simp] theorem State.setXy_pc (x : Idx) (v : Word) : (s.setXy x v).pc = s.pc := by cases x <;> rfl
@[simp] theorem State.setXy_regI (x : Idx) (v : Word) : (s.setXy x v).regI = s.regI := by cases x <;> rfl
@[simp] theorem State.setXy_regR (x : Idx) (v : Word) : (s.setXy x v).regR = s.regR := by cases x <;> rfl
@[simp] theorem State.setXy_iff1 (x : Idx) (v : Word) : (s.setXy x v).iff1 = s.iff1 := by cases x <;> rfl
@[simp] theorem State.setXy_iff2 (x : Idx) (v : Word) : (s.setXy x v).iff2 = s.iff2 := by cases x <;> rfl
@[simp] theorem State.setXy_im (x : Idx) (v : Word) : (s.setXy x v).im = s.im := by cases x <;> rfl
@[simp] theorem State.setXy_halted (x : Idx) (v : Word) : (s.setXy x v).halted = s.halted := by cases x <;> rfl
@[simp] theorem State.setXy_pending (x : Idx) (v : Word) : (s.setXy x v).pending = s.pending := by cases x <;> rfl
@[simp] theorem State.setXy_prefixTag (x : Idx) (v : Word) : (s.setXy x v).prefixTag = s.prefixTag := by cases x <;> rfl
@[simp] theorem State.setXy_page (x : Idx) (v : Word) : (s.setXy x v).page = s.page := by cases x <;> rfl
@[simp] theorem State.setXy_fault (x : Idx) (v : Word) : (s.setXy x v).fault = s.fault := by cases x <;> rfl
@[simp] theorem State.setXy_mem (x : Idx) (v : Word) : (s.setXy x v).mem = s.mem := by cases x <;> rfl
@[simp] theorem State.setXy_cfg (x : Idx) (v : Word) : (s.setXy x v).cfg = s.cfg := by cases x <;> rfl
@[simp] theorem State.setXy_events (x : Idx) (v : Word) : (s.setXy x v).events = s.events := by cases x <;> rfl
@[simp] theorem State.setXy_peripheral (x : Idx) (v : Word) : (s.setXy x v).peripheral = s.peripheral := by cases x <;> rfl
@[simp] theorem State.setXy_replies (x : Idx) (v : Word) : (s.setXy x v).replies = s.replies := by cases x <;> rfl

/-! ## `setHalf` -/

@[simp] theorem State.setHalf_main (x : Idx) (hf : Half) (v : Byte) : (s.setHalf x hf v).main = s.main := by cases x <;> cases hf <;> rfl
@[simp] theorem State.setHalf_shadow (x : Idx) (hf : Half) (v : Byte) : (s.setHalf x hf v).shadow = s.shadow := by cases x <;> cases hf <;> rfl
@[simp] theorem State.setHalf_sp (x : Idx) (hf : Half) (v : Byte) : (s.setHalf x hf v).sp = s.sp := by cases x <;> cases hf <;> rfl
@[simp] theorem State.setHalf_pc (x : Idx) (hf : Half) (v : Byte) : (s.setHalf x hf v).pc = s.pc := by cases x <;> cases hf <;> rfl
@[simp] theorem State.setHalf_regI (x : Idx) (hf : Half) (v : Byte) : (s.setHalf x hf v).regI = s.regI := by cases x <;> cases hf <;> rfl
@[simp] theorem State.setHalf_regR (x : Idx) (hf : Half) (v : Byte) : (s.setHalf x hf v).regR = s.regR := by cases x <;> cases hf <;> rfl
@[simp] theorem State.setHalf_iff1 (x : Idx) (hf : Half) (v : Byte) : (s.setHalf x hf v).iff1 = s.iff1 := by cases x <;> cases hf <;> rfl
@[simp] theorem State.setHalf_iff2 (x : Idx) (hf : Half) (v : Byte) : (s.setHalf x hf v).iff2 = s.iff2 := by cases x <;> cases hf <;> rfl
@[simp] theorem State.setHalf_im (x : Idx) (hf : Half) (v : Byte) : (s.setHalf x hf v).im = s.im := by cases x <;> cases hf <;> rfl
@[simp] theorem State.setHalf_halted (x : Idx) (hf : Half) (v : Byte) : (s.setHalf x hf v).halted = s.halted := by cases x <;> cases hf <;> rfl
@[simp] theorem State.setHalf_pending (x : Idx) (hf : Half) (v : Byte) : (s.setHalf x hf v).pending = s.pending := by cases x <;> cases hf <;> rfl
@[simp] theorem State.setHalf_prefixTag (x : Idx) (hf : Half) (v : Byte) : (s.setHalf x hf v).prefixTag = s.prefixTag := by cases x <;> cases hf <;> rfl
@[simp] theorem State.setHalf_page (x : Idx) (hf : Half) (v : Byte) : (s.setHalf x hf v).page = s.page := by cases x <;> cases hf <;> rfl
@[simp] theorem State.setHalf_fault (x : Idx) (hf : Half) (v : Byte) : (s.setHalf x hf v).fault = s.fault := by cases x <;> cases hf <;> rfl
@[simp] theorem State.setHalf_mem (x : Idx) (hf : Half) (v : Byte) : (s.setHalf x hf v).mem = s.mem := by cases x <;> cases hf <;> rfl
@[simp] theorem State.setHalf_cfg (x : Idx) (hf : Half) (v : Byte) : (s.setHalf x hf v).cfg = s.cfg := by cases x <;> cases hf <;> rfl
@[simp] theorem State.setHalf_events (x : Idx) (hf : Half) (v : Byte) : (s.setHalf x hf v).events = s.events := by cases x <;> cases hf <;> rfl
@[simp] theorem State.setHalf_peripheral (x : Idx) (hf : Half) (v : Byte) : (s.setHalf x hf v).peripheral = s.peripheral := by cases x <;> cases hf <;> rfl
@[simp] theorem State.setHalf_replies (x : Idx) (hf : Half) (v : Byte) : (s.setHalf x hf v).replies = s.replies := by cases x <;> cases hf <;> rfl

/-! ## `setRegX` -/

@[simp] theorem State.setRegX_shadow (x : Idx) (r : RegX) (v : Byte) : (s.setRegX x r v).shadow = s.shadow := by cases x <;> cases r <;> rfl
@[simp] theorem State.setRegX_sp (x : Idx) (r : RegX) (v : Byte) : (s.setRegX x r v).sp = s.sp := by cases x <;> cases r <;> rfl
@[simp] theorem State.setRegX_pc (x : Idx) (r : RegX) (v : Byte) : (s.setRegX x r v).pc = s.pc := by cases x <;> cases r <;> rfl
@[simp] theorem State.setRegX_regI (x : Idx) (r : RegX) (v : Byte) : (s.setRegX x r v).regI = s.regI := by cases x <;> cases r <;> rfl
@[simp] theorem State.setRegX_regR (x : Idx) (r : RegX) (v : Byte) : (s.setRegX x r v).regR = s.regR := by cases x <;> cases r <;> rfl
@[simp] theorem State.setRegX_iff1 (x : Idx) (r : RegX) (v : Byte) : (s.setRegX x r v).iff1 = s.iff1 := by cases x <;> cases r <;> rfl
@[simp] theorem State.setRegX_iff2 (x : Idx) (r : RegX) (v : Byte) : (s.setRegX x r v).iff2 = s.iff2 := by cases x <;> cases r <;> rfl
@[simp] theorem State.setRegX_im (x : Idx) (r : RegX) (v : Byte) : (s.setRegX x r v).im = s.im := by cases x <;> cases r <;> rfl
@[simp] theorem State.setRegX_halted (x : Idx) (r : RegX) (v : Byte) : (s.setRegX x r v).halted = s.halted := by cases x <;> cases r <;> rfl
@[simp] theorem State.setRegX_pending (x : Idx) (r : RegX) (v : Byte) : (s.setRegX x r v).pending = s.pending := by cases x <;> cases r <;> rfl
@[simp] theorem State.setRegX_prefixTag (x : Idx) (r : RegX) (v : Byte) : (s.setRegX x r v).prefixTag = s.prefixTag := by cases x <;> cases r <;> rfl
@[simp] theorem State.setRegX_page (x : Idx) (r : RegX) (v : Byte) : (s.setRegX x r v).page = s.page := by cases x <;> cases r <;> rfl
@[simp] theorem State.setRegX_fault (x : Idx) (r : RegX) (v : Byte) : (s.setRegX x r v).fault = s.fault := by cases x <;> cases r <;> rfl
@[simp] theorem State.setRegX_mem (x : Idx) (r : RegX) (v : Byte) : (s.setRegX x r v).mem = s.mem := by cases x <;> cases r <;> rfl
@[simp] theorem State.setRegX_cfg (x : Idx) (r : RegX) (v : Byte) : (s.setRegX x r v).cfg = s.cfg := by cases x <;> cases r <;> rfl
@[simp] theorem State.setRegX_events (x : Idx) (r : RegX) (v : Byte) : (s.setRegX x r v).events = s.events := by cases x <;> cases r <;> rfl
@[simp] theorem State.setRegX_peripheral (x : Idx) (r : RegX) (v : Byte) : (s.setRegX x r v).peripheral = s.peripheral := by cases x <;> cases r <;> rfl
@[simp] theorem State.setRegX_replies (x : Idx) (r : RegX) (v : Byte) : (s.setRegX x r v).replies = s.replies := by cases x <;> cases r <;> rfl

/-! ## `writeByte` -/

@[simp] theorem State.writeByte_main (a : Word) (v : Byte) : (s.writeByte a v).main = s.main := rfl
@[simp] theorem State.writeByte_shadow (a : Word) (v : Byte) : (s.writeByte a v).shadow = s.shadow := rfl
@[simp] theorem State.writeByte_ix (a : Word) (v : Byte) : (s.writeByte a v).ix = s.ix := rfl
@[simp] theorem State.writeByte_iy (a : Word) (v : Byte) : (s.writeByte a v).iy = s.iy := rfl
@[simp] theorem State.writeByte_sp (a : Word) (v : Byte) : (s.writeByte a v).sp = s.sp := rfl
@[simp] theorem State.writeByte_pc (a : Word) (v : Byte) : (s.writeByte a v).pc = s.pc := rfl
@[simp] theorem State.writeByte_regI (a : Word) (v : Byte) : (s.writeByte a v).regI = s.regI := rfl
@[simp] theorem State.writeByte_regR (a : Word) (v : Byte) : (s.writeByte a v).regR = s.regR := rfl
@[simp] theorem State.writeByte_iff1 (a : Word) (v : Byte) : (s.writeByte a v).iff1 = s.iff1 := rfl
@[simp] theorem State.writeByte_iff2 (a : Word) (v : Byte) : (s.writeByte a v).iff2 = s.iff2 := rfl
@[simp] theorem State.writeByte_im (a : Word) (v : Byte) : (s.writeByte a v).im = s.im := rfl
@[simp] theorem State.writeByte_halted (a : Word) (v : Byte) : (s.writeByte a v).halted = s.halted := rfl
@[simp] theorem State.writeByte_pending (a : Word) (v : Byte) : (s.writeByte a v).pending = s.pending := rfl
@[simp] theorem State.writeByte_prefixTag (a : Word) (v : Byte) : (s.writeByte a v).prefixTag = s.prefixTag := rfl
@[simp] theorem State.writeByte_page (a : Word) (v : Byte) : (s.writeByte a v).page = s.page := rfl
@[simp] theorem State.writeByte_fault (a : Word) (v : Byte) : (s.writeByte a v).fault = s.fault := rfl
@[simp] theorem State.writeByte_mem (a : Word) (v : Byte) : (s.writeByte a v).mem = Memory.write s.mem a.toNat v := rfl
@[simp] theorem State.writeByte_cfg (a : Word) (v : Byte) : (s.writeByte a v).cfg = s.cfg := rfl
@[simp] theorem State.writeByte_events (a : Word) (v : Byte) : (s.writeByte a v).events = s.events := rfl
@[simp] theorem State.writeByte_peripheral (a : Word) (v : Byte) : (s.writeByte a v).peripheral = s.peripheral := rfl
@[simp] theorem State.writeByte_replies (a : Word) (v : Byte) : (s.writeByte a v).replies = s.replies := rfl

/-! ## `writeWord` -/

@[simp] theorem State.writeWord_main (a v : Word) : (s.writeWord a v).main = s.main := rfl
@[simp] theorem State.writeWord_shadow (a v : Word) : (s.writeWord a v).shadow = s.shadow := rfl
@[simp] theorem State.writeWord_ix (a v : Word) : (s.writeWord a v).ix = s.ix := rfl
@[simp] theorem State.writeWord_iy (a v : Word) : (s.writeWord a v).iy = s.iy := rfl
@[simp] theorem State.writeWord_sp (a v : Word) : (s.writeWord a v).sp = s.sp := rfl
@[simp] theorem State.writeWord_pc (a v : Word) : (s.writeWord a v).pc = s.pc := rfl
@[simp] theorem State.writeWord_regI (a v : Word) : (s.writeWord a v).regI = s.regI := rfl
@[simp] theorem State.writeWord_regR (a v : Word) : (s.writeWord a v).regR = s.regR := rfl
@[simp] theorem State.writeWord_iff1 (a v : Word) : (s.writeWord a v).iff1 = s.iff1 := rfl
@[simp] theorem State.writeWord_iff2 (a v : Word) : (s.writeWord a v).iff2 = s.iff2 := rfl
@[simp] theorem State.writeWord_im (a v : Word) : (s.writeWord a v).im = s.im := rfl
@[simp] theorem State.writeWord_halted (a v : Word) : (s.writeWord a v).halted = s.halted := rfl
@[simp] theorem State.writeWord_pending (a v : Word) : (s.writeWord a v).pending = s.pending := rfl
@[simp] theorem State.writeWord_prefixTag (a v : Word) : (s.writeWord a v).prefixTag = s.prefixTag := rfl
@[simp] theorem State.writeWord_page (a v : Word) : (s.writeWord a v).page = s.page := rfl
@[simp] theorem State.writeWord_fault (a v : Word) : (s.writeWord a v).fault = s.fault := rfl
@[simp] theorem State.writeWord_mem (a v : Word) : (s.writeWord a v).mem = Memory.write (Memory.write s.mem a.toNat (lo v)) (a + 1).toNat (hi v) := rfl
@[simp] theorem State.writeWord_cfg (a v : Word) : (s.writeWord a v).cfg = s.cfg := rfl
@[simp] theorem State.writeWord_events (a v : Word) : (s.writeWord a v).events = s.events := rfl
@[simp] theorem State.writeWord_peripheral (a v : Word) : (s.writeWord a v).peripheral = s.peripheral := rfl
@[simp] theorem State.writeWord_replies (a v : Word) : (s.writeWord a v).replies = s.replies := rfl

/-! ## `advance` -/

@[simp] theorem State.advance_main (n : Nat) : (s.advance n).main = s.main := rfl
@[simp] theorem State.advance_shadow (n : Nat) : (s.advance n).shadow = s.shadow := rfl
@[simp] theorem State.advance_ix (n : Nat) : (s.advance n).ix = s.ix := rfl
@[simp] theorem State.advance_iy (n : Nat) : (s.advance n).iy = s.iy := rfl
@[simp] theorem State.advance_sp (n : Nat) : (s.advance n).sp = s.sp := rfl
@[simp] theorem State.advance_pc (n : Nat) : (s.advance n).pc = s.pc + BitVec.ofNat 16 n := rfl
@[simp] theorem State.advance_regI (n : Nat) : (s.advance n).regI = s.regI := rfl
@[simp] theorem State.advance_regR (n : Nat) : (s.advance n).regR = s.regR := rfl
@[simp] theorem State.advance_iff1 (n : Nat) : (s.advance n).iff1 = s.iff1 := rfl
@[simp] theorem State.advance_iff2 (n : Nat) : (s.advance n).iff2 = s.iff2 := rfl
@[simp] theorem State.advance_im (n : Nat) : (s.advance n).im = s.im := rfl
@[simp] theorem State.advance_halted (n : Nat) : (s.advance n).halted = s.halted := rfl
@[simp] theorem State.advance_pending (n : Nat) : (s.advance n).pending = s.pending := rfl
@[simp] theorem State.advance_prefixTag (n : Nat) : (s.advance n).prefixTag = s.prefixTag := rfl
@[simp] theorem State.advance_page (n : Nat) : (s.advance n).page = s.page := rfl
@[simp] theorem State.advance_fault (n : Nat) : (s.advance n).fault = s.fault := rfl
@[simp] theorem State.advance_mem (n : Nat) : (s.advance n).mem = s.mem := rfl
@[simp] theorem State.advance_cfg (n : Nat) : (s.advance n).cfg = s.cfg := rfl
@[simp] theorem State.advance_events (n : Nat) : (s.advance n).events = s.events := rfl
@[simp] theorem State.advance_peripheral (n : Nat) : (s.advance n).peripheral = s.peripheral := rfl
@[simp] theorem State.advance_replies (n : Nat) : (s.advance n).replies = s.replies := rfl

/-! ## `select` -/

@[simp] theorem State.select_main (tag : PrefixTag) (page : Page) : (s.select tag page).main = s.main := rfl
@[simp] theorem State.select_shadow (tag : PrefixTag) (page : Page) : (s.select tag page).shadow = s.shadow := rfl
@[simp] theorem State.select_ix (tag : PrefixTag) (page : Page) : (s.select tag page).ix = s.ix := rfl
@[simp] theorem State.select_iy (tag : PrefixTag) (page : Page) : (s.select tag page).iy = s.iy := rfl
@[simp] theorem State.select_sp (tag : PrefixTag) (page : Page) : (s.select tag page).sp = s.sp := rfl
@[simp] theorem State.select_pc (tag : PrefixTag) (page : Page) : (s.select tag page).pc = s.pc := rfl
@[simp] theorem State.select_regI (tag : PrefixTag) (page : Page) : (s.select tag page).regI = s.regI := rfl
@[simp] theorem State.select_regR (tag : PrefixTag) (page : Page) : (s.select tag page).regR = s.regR := rfl
@[simp] theorem State.select_iff1 (tag : PrefixTag) (page : Page) : (s.select tag page).iff1 = s.iff1 := rfl
@[simp] theorem State.select_iff2 (tag : PrefixTag) (page : Page) : (s.select tag page).iff2 = s.iff2 := rfl
@[simp] theorem State.select_im (tag : PrefixTag) (page : Page) : (s.select tag page).im = s.im := rfl
@[simp] theorem State.select_halted (tag : PrefixTag) (page : Page) : (s.select tag page).halted = s.halted := rfl
@[simp] theorem State.select_pending (tag : PrefixTag) (page : Page) : (s.select tag page).pending = s.pending := rfl
@[simp] theorem State.select_prefixTag (tag : PrefixTag) (page : Page) : (s.select tag page).prefixTag = tag := rfl
@[simp] theorem State.select_page (tag : PrefixTag) (page : Page) : (s.select tag page).page = page := rfl
@[simp] theorem State.select_fault (tag : PrefixTag) (page : Page) : (s.select tag page).fault = s.fault := rfl
@[simp] theorem State.select_mem (tag : PrefixTag) (page : Page) : (s.select tag page).mem = s.mem := rfl
@[simp] theorem State.select_cfg (tag : PrefixTag) (page : Page) : (s.select tag page).cfg = s.cfg := rfl
@[simp] theorem State.select_events (tag : PrefixTag) (page : Page) : (s.select tag page).events = s.events := rfl
@[simp] theorem State.select_peripheral (tag : PrefixTag) (page : Page) : (s.select tag page).peripheral = s.peripheral := rfl
@[simp] theorem State.select_replies (tag : PrefixTag) (page : Page) : (s.select tag page).replies = s.replies := rfl

/-! ## `unselect` -/

@[simp] theorem State.unselect_main : (s.unselect).main = s.main := rfl
@[simp] theorem State.unselect_shadow : (s.unselect).shadow = s.shadow := rfl
@[simp] theorem State.unselect_ix : (s.unselect).ix = s.ix := rfl
@[simp] theorem State.unselect_iy : (s.unselect).iy = s.iy := rfl
@[simp] theorem State.unselect_sp : (s.unselect).sp = s.sp := rfl
@[simp] theorem State.unselect_pc : (s.unselect).pc = s.pc := rfl
@[simp] theorem State.unselect_regI : (s.unselect).regI = s.regI := rfl
@[simp] theorem State.unselect_regR : (s.unselect).regR = s.regR := rfl
@[simp] theorem State.unselect_iff1 : (s.unselect).iff1 = s.iff1 := rfl
@[simp] theorem State.unselect_iff2 : (s.unselect).iff2 = s.iff2 := rfl
@[simp] theorem State.unselect_im : (s.unselect).im = s.im := rfl
@[simp] theorem State.unselect_halted : (s.unselect).halted = s.halted := rfl
@[simp] theorem State.unselect_pending : (s.unselect).pending = s.pending := rfl
@[simp] theorem State.unselect_prefixTag : (s.unselect).prefixTag = .none := rfl
@[simp] theorem State.unselect_page : (s.unselect).page = .main := rfl
@[simp] theorem State.unselect_fault : (s.unselect).fault = s.fault := rfl
@[simp] theorem State.unselect_mem : (s.unselect).mem = s.mem := rfl
@[simp] theorem State.unselect_cfg : (s.unselect).cfg = s.cfg := rfl
@[simp] theorem State.unselect_events : (s.unselect).events = s.events := rfl
@[simp] theorem State.unselect_peripheral : (s.unselect).peripheral = s.peripheral := rfl
@[simp] theorem State.unselect_replies : (s.unselect).replies = s.replies := rfl

/-! ## `record` -/

@[simp] theorem State.record_main (e : Event) : (s.record e).main = s.main := rfl
@[simp] theorem State.record_shadow (e : Event) : (s.record e).shadow = s.shadow := rfl
@[simp] theorem State.record_ix (e : Event) : (s.record e).ix = s.ix := rfl
@[simp] theorem State.record_iy (e : Event) : (s.record e).iy = s.iy := rfl
@[simp] theorem State.record_sp (e : Event) : (s.record e).sp = s.sp := rfl
@[simp] theorem State.record_pc (e : Event) : (s.record e).pc = s.pc := rfl
@[simp] theorem State.record_regI (e : Event) : (s.record e).regI = s.regI := rfl
@[simp] theorem State.record_regR (e : Event) : (s.record e).regR = s.regR := rfl
@[simp] theorem State.record_iff1 (e : Event) : (s.record e).iff1 = s.iff1 := rfl
@[simp] theorem State.record_iff2 (e : Event) : (s.record e).iff2 = s.iff2 := rfl
@[simp] theorem State.record_im (e : Event) : (s.record e).im = s.im := rfl
@[simp] theorem State.record_halted (e : Event) : (s.record e).halted = s.halted := rfl
@[simp] theorem State.record_pending (e : Event) : (s.record e).pending = s.pending := rfl
@[simp] theorem State.record_prefixTag (e : Event) : (s.record e).prefixTag = s.prefixTag := rfl
@[simp] theorem State.record_page (e : Event) : (s.record e).page = s.page := rfl
@[simp] theorem State.record_fault (e : Event) : (s.record e).fault = s.fault := rfl
@[simp] theorem State.record_mem (e : Event) : (s.record e).mem = s.mem := rfl
@[simp] theorem State.record_cfg (e : Event) : (s.record e).cfg = s.cfg := rfl
@[simp] theorem State.record_events (e : Event) : (s.record e).events = s.events ++ [e] := rfl
@[simp] theorem State.record_peripheral (e : Event) : (s.record e).peripheral = s.peripheral := rfl
@[simp] theorem State.record_replies (e : Event) : (s.record e).replies = s.replies := rfl

/-! ## `ignore` -/

@[simp] theorem State.ignore_main (page : Page) (sub : Byte) : (s.ignore page sub).main = s.main := rfl
@[simp] theorem State.ignore_shadow (page : Page) (sub : Byte) : (s.ignore page sub).shadow = s.shadow := rfl
@[simp] theorem State.ignore_ix (page : Page) (sub : Byte) : (s.ignore page sub).ix = s.ix := rfl
@[simp] theorem State.ignore_iy (page : Page) (sub : Byte) : (s.ignore page sub).iy = s.iy := rfl
@[simp] theorem State.ignore_sp (page : Page) (sub : Byte) : (s.ignore page sub).sp = s.sp := rfl
@[simp] theorem State.ignore_pc (page : Page) (sub : Byte) : (s.ignore page sub).pc = s.pc := rfl
@[simp] theorem State.ignore_regI (page : Page) (sub : Byte) : (s.ignore page sub).regI = s.regI := rfl
@[simp] theorem State.ignore_regR (page : Page) (sub : Byte) : (s.ignore page sub).regR = s.regR := rfl
@[simp] theorem State.ignore_iff1 (page : Page) (sub : Byte) : (s.ignore page sub).iff1 = s.iff1 := rfl
@[simp] theorem State.ignore_iff2 (page : Page) (sub : Byte) : (s.ignore page sub).iff2 = s.iff2 := rfl
@[simp] theorem State.ignore_im (page : Page) (sub : Byte) : (s.ignore page sub).im = s.im := rfl
@[simp] theorem State.ignore_halted (page : Page) (sub : Byte) : (s.ignore page sub).halted = s.halted := rfl
@[simp] theorem State.ignore_pending (page : Page) (sub : Byte) : (s.ignore page sub).pending = s.pending := rfl
@[simp] theorem State.ignore_prefixTag (page : Page) (sub : Byte) : (s.ignore page sub).prefixTag = s.prefixTag := rfl
@[simp] theorem State.ignore_page (page : Page) (sub : Byte) : (s.ignore page sub).page = s.page := rfl
@[simp] theorem State.ignore_fault (page : Page) (sub : Byte) : (s.ignore page sub).fault = s.fault := rfl
@[simp] theorem State.ignore_mem (page : Page) (sub : Byte) : (s.ignore page sub).mem = s.mem := rfl
@[simp] theorem State.ignore_cfg (page : Page) (sub : Byte) : (s.ignore page sub).cfg = s.cfg := rfl
@[simp] theorem State.ignore_events (page : Page) (sub : Byte) : (s.ignore page sub).events = s.events ++ [.ignored page sub (s.pc - 1)] := rfl
@[simp] theorem State.ignore_peripheral (page : Page) (sub : Byte) : (s.ignore page sub).peripheral = s.peripheral := rfl
@[simp] theorem State.ignore_replies (page : Page) (sub : Byte) : (s.ignore page sub).replies = s.replies := rfl

/-! ## `interrupt` -/

@[simp] theorem State.interrupt_main : (s.interrupt).main = s.main := rfl
@[simp] theorem State.interrupt_shadow : (s.interrupt).shadow = s.shadow := rfl
@[simp] theorem State.interrupt_ix : (s.interrupt).ix = s.ix := rfl
@[simp] theorem State.interrupt_iy : (s.interrupt).iy = s.iy := rfl
@[simp] theorem State.interrupt_sp : (s.interrupt).sp = s.sp := rfl
@[simp] theorem State.interrupt_pc : (s.interrupt).pc = s.pc := rfl
@[simp] theorem State.interrupt_regI : (s.interrupt).regI = s.regI := rfl
@[simp] theorem State.interrupt_regR : (s.interrupt).regR = s.regR := rfl
@[simp] theorem State.interrupt_iff1 : (s.interrupt).iff1 = s.iff1 := rfl
@[simp] theorem State.interrupt_iff2 : (s.interrupt).iff2 = s.iff2 := rfl
@[simp] theorem State.interrupt_im : (s.interrupt).im = s.im := rfl
@[simp] theorem State.interrupt_halted : (s.interrupt).halted = (s.halted && !s.iff1) := rfl
@[simp] theorem State.interrupt_pending : (s.interrupt).pending = true := rfl
@[simp] theorem State.interrupt_prefixTag : (s.interrupt).prefixTag = s.prefixTag := rfl
@[simp] theorem State.interrupt_page : (s.interrupt).page = s.page := rfl
@[simp] theorem State.interrupt_fault : (s.interrupt).fault = s.fault := rfl
@[simp] theorem State.interrupt_mem : (s.interrupt).mem = s.mem := rfl
@[simp] theorem State.interrupt_cfg : (s.interrupt).cfg = s.cfg := rfl
@[simp] theorem State.interrupt_events : (s.interrupt).events = s.events := rfl
@[simp] theorem State.interrupt_peripheral : (s.interrupt).peripheral = s.peripheral := rfl
@[simp] theorem State.interrupt_replies : (s.interrupt).replies = s.replies := rfl

/-! ## `raiseStack` -/

@[simp] theorem State.raiseStack_main : (s.raiseStack).main = s.main := rfl
@[simp] theorem State.raiseStack_shadow : (s.raiseStack).shadow = s.shadow := rfl
@[simp] theorem State.raiseStack_ix : (s.raiseStack).ix = s.ix := rfl
@[simp] theorem State.raiseStack_iy : (s.raiseStack).iy = s.iy := rfl
@[simp] theorem State.raiseStack_sp : (s.raiseStack).sp = s.sp := rfl
@[simp] theorem State.raiseStack_pc : (s.raiseStack).pc = s.pc := rfl
@[simp] theorem State.raiseStack_regI : (s.raiseStack).regI = s.regI := rfl
@[simp] theorem State.raiseStack_regR : (s.raiseStack).regR = s.regR := rfl
@[simp] theorem State.raiseStack_iff1 : (s.raiseStack).iff1 = s.iff1 := rfl
@[simp] theorem State.raiseStack_iff2 : (s.raiseStack).iff2 = s.iff2 := rfl
@[simp] theorem State.raiseStack_im : (s.raiseStack).im = s.im := rfl
@[simp] theorem State.raiseStack_halted : (s.raiseStack).halted = true := rfl
@[simp] theorem State.raiseStack_pending : (s.raiseStack).pending = s.pending := rfl
@[simp] theorem State.raiseStack_prefixTag : (s.raiseStack).prefixTag = s.prefixTag := rfl
@[simp] theorem State.raiseStack_page : (s.raiseStack).page = s.page := rfl
@[simp] theorem State.raiseStack_fault : (s.raiseStack).fault = some .stackOutOfRange := rfl
@[simp] theorem State.raiseStack_mem : (s.raiseStack).mem = s.mem := rfl
@[simp] theorem State.raiseStack_cfg : (s.raiseStack).cfg = s.cfg := rfl
@[simp] theorem State.raiseStack_events : (s.raiseStack).events = s.events := rfl
@[simp] theorem State.raiseStack_peripheral : (s.raiseStack).peripheral = s.peripheral := rfl
@[simp] theorem State.raiseStack_replies : (s.raiseStack).replies = s.replies := rfl

/-! ## `raiseUnknown` -/

@[simp] theorem State.raiseUnknown_main (b : Byte) (a : Word) : (s.raiseUnknown b a).main = s.main := rfl
@[simp] theorem State.raiseUnknown_shadow (b : Byte) (a : Word) : (s.raiseUnknown b a).shadow = s.shadow := rfl
@[simp] theorem State.raiseUnknown_ix (b : Byte) (a : Word) : (s.raiseUnknown b a).ix = s.ix := rfl
@[simp] theorem State.raiseUnknown_iy (b : Byte) (a : Word) : (s.raiseUnknown b a).iy = s.iy := rfl
@[simp] theorem State.raiseUnknown_sp (b : Byte) (a : Word) : (s.raiseUnknown b a).sp = s.sp := rfl
@[simp] theorem State.raiseUnknown_pc (b : Byte) (a : Word) : (s.raiseUnknown b a).pc = s.pc := rfl
@[simp] theorem State.raiseUnknown_regI (b : Byte) (a : Word) : (s.raiseUnknown b a).regI = s.regI := rfl
@[simp] theorem State.raiseUnknown_regR (b : Byte) (a : Word) : (s.raiseUnknown b a).regR = s.regR := rfl
@[simp] theorem State.raiseUnknown_iff1 (b : Byte) (a : Word) : (s.raiseUnknown b a).iff1 = s.iff1 := rfl
@[simp] theorem State.raiseUnknown_iff2 (b : Byte) (a : Word) : (s.raiseUnknown b a).iff2 = s.iff2 := rfl
@[simp] theorem State.raiseUnknown_im (b : Byte) (a : Word) : (s.raiseUnknown b a).im = s.im := rfl
@[simp] theorem State.raiseUnknown_halted (b : Byte) (a : Word) : (s.raiseUnknown b a).halted = true := rfl
@[simp] theorem State.raiseUnknown_pending (b : Byte) (a : Word) : (s.raiseUnknown b a).pending = s.pending := rfl
@[simp] theorem State.raiseUnknown_prefixTag (b : Byte) (a : Word) : (s.raiseUnknown b a).prefixTag = s.prefixTag := rfl
@[simp] theorem State.raiseUnknown_page (b : Byte) (a : Word) : (s.raiseUnknown b a).page = s.page := rfl
@[simp] theorem State.raiseUnknown_fault (b : Byte) (a : Word) : (s.raiseUnknown b a).fault = some (.unknownOpcode b a) := rfl
@[simp] theorem State.raiseUnknown_mem (b : Byte) (a : Word) : (s.raiseUnknown b a).mem = s.mem := rfl
@[simp] theorem State.raiseUnknown_cfg (b : Byte) (a : Word) : (s.raiseUnknown b a).cfg = s.cfg := rfl
@[simp] theorem State.raiseUnknown_events (b : Byte) (a : Word) : (s.raiseUnknown b a).events = s.events := rfl
@[simp] theorem State.raiseUnknown_peripheral (b : Byte) (a : Word) : (s.raiseUnknown b a).peripheral = s.peripheral := rfl
@[simp] theorem State.raiseUnknown_replies (b : Byte) (a : Word) : (s.raiseUnknown b a).replies = s.replies := rfl

/-! ## Reads of the pairs and the index registers after a write -/

@[simp] theorem State.setXy_xy (x : Idx) (v : Word) : (s.setXy x v).xy x = v := by cases x <;> rfl
theorem State.setXy_xy_ne (x y : Idx) (v : Word) (h : y ≠ x) : (s.setXy x v).xy y = s.xy y := by
  cases x <;> cases y <;> first | rfl | exact absurd rfl h
@[simp] theorem Bank.set_get (k : Bank) (r : Reg8) (v : Byte) : (k.set r v).get r = v := by cases r <;> rfl
theorem Bank.set_get_ne (k : Bank) (r q : Reg8) (v : Byte) (h : q ≠ r) : (k.set r v).get q = k.get q := by
  cases r <;> cases q <;> first | rfl | exact absurd rfl h
@[simp] theorem Bank.set_f (k : Bank) (r : Reg8) (v : Byte) : (k.set r v).f = k.f := by cases r <;> rfl
@[simp] theorem State.setReg_reg (r : Reg8) (v : Byte) : (s.setReg r v).reg r = v := by cases r <;> rfl
theorem State.setReg_reg_ne (r q : Reg8) (v : Byte) (h : q ≠ r) : (s.setReg r v).reg q = s.reg q :=
  Bank.set_get_ne s.main r q v h

theorem pair_toNat (a b : Byte) : (pair a b).toNat = a.toNat * 256 + b.toNat := by
  show (a ++ b : BitVec (8 + 8)).toNat = _
  rw [BitVec.toNat_append, ← Nat.shiftLeft_add_eq_or_of_lt b.isLt, Nat.shiftLeft_eq]

theorem hi_toNat (v : Word) : (hi v).toNat = v.toNat / 256 := by
  have := v.isLt
  simp only [hi, BitVec.extractLsb'_toNat, Nat.shiftRight_eq_div_pow]
  omega

theorem lo_toNat (v : Word) : (lo v).toNat = v.toNat % 256 := by
  simp only [lo, BitVec.extractLsb'_toNat, Nat.shiftRight_eq_div_pow]
  omega

/-- A word put together from the halves of a word is that word (R11). -/
@[simp] theorem pair_hi_lo (v : Word) : pair (hi v) (lo v) = v := by
  apply BitVec.eq_of_toNat_eq
  rw [pair_toNat, hi_toNat, lo_toNat]
  omega

@[simp] theorem hi_pair (a b : Byte) : hi (pair a b) = a := by
  apply BitVec.eq_of_toNat_eq
  have := b.isLt
  rw [hi_toNat, pair_toNat]
  omega

@[simp] theorem lo_pair (a b : Byte) : lo (pair a b) = b := by
  apply BitVec.eq_of_toNat_eq
  have := b.isLt
  rw [lo_toNat, pair_toNat]
  omega

@[simp] theorem State.setRp_rp (rp : Rp) (v : Word) : (s.setRp rp v).rp rp = v := by
  cases rp
  · exact pair_hi_lo v
  · exact pair_hi_lo v
  · exact pair_hi_lo v
  · rfl
@[simp] theorem State.setHl_hl (v : Word) : (s.setHl v).main.hl = v := pair_hi_lo v

end Sys2Proof.Machine
end

