-- ==== Sys2Proof/Laws/Frame.lean ====
section
/-! SUPPORT. The small lemmas of the frame words of Safety.lean: frames weaken and compose, and a completed instruction with a
known next state meets `Does`. -/

namespace Sys2Proof.Machine

theorem Same.rfl' (s : State) (p : Part) : Same s s p := by
  cases p <;> first | exact rfl | exact ⟨rfl, rfl⟩

theorem Same.trans {s t u : State} {p : Part} (h : Same s t p) (h' : Same t u p) : Same s u p := by
  cases p <;> first | exact Eq.trans h' h | exact ⟨h'.1.trans h.1, h'.2.trans h.2⟩

theorem OnlyChanges.refl (parts : List Part) (s : State) : OnlyChanges parts s s := fun p _ => Same.rfl' s p

theorem OnlyChanges.mono {parts more : List Part} {s t : State} (h : OnlyChanges parts s t) (sub : ∀ p ∈ parts, p ∈ more) :
    OnlyChanges more s t := fun p hp => h p fun hin => hp (sub p hin)

theorem OnlyChanges.trans {parts more : List Part} {s t u : State} (h : OnlyChanges parts s t) (h' : OnlyChanges more t u) :
    OnlyChanges (parts ++ more) s u := fun p hp =>
  (h p fun hin => hp (List.mem_append_left _ hin)).trans (h' p fun hin => hp (List.mem_append_right _ hin))

/-- An instruction whose meaning is `.next (f s)` for every state. -/
theorem Does.of_next {i : Instr} {changed : State → List Part} {post : State → State → Prop} (f : State → State)
    (he : ∀ s, exec i s = .next (f s)) (hp : ∀ s, post s (f s)) (hf : ∀ s, OnlyChanges (changed s) s (f s)) :
    Does i changed post := fun s => ⟨f s, he s, hp s, hf s⟩

/-- `Does` is `DoesWhen` without a condition. -/
theorem Does.when {i : Instr} {changed : State → List Part} {post : State → State → Prop} (h : Does i changed post)
    (pre : State → Prop) : DoesWhen pre i changed post := fun s _ => h s

end Sys2Proof.Machine
end

