-- ==== Sys2Proof/Laws/Memory.lean ====
section
/-! SUPPORT. Memory: a read after a write, the canonical form that every operation keeps, and equality of memories that
read alike. -/

namespace Sys2Proof.Machine

/-! ## Lists of cells -/

theorem Memory.read_erase (m : Memory) (a b : Nat) :
    Memory.read (Memory.erase m a) b = if b = a then 0 else Memory.read m b := by
  induction m with
  | nil => simp [Memory.erase, Memory.read]
  | cons c m ih =>
    obtain ⟨k, v⟩ := c
    have hcons : Memory.erase ((k, v) :: m) a = if k = a then Memory.erase m a else (k, v) :: Memory.erase m a := by
      by_cases h : k = a <;> simp [Memory.erase, h]
    rw [hcons]
    by_cases h : k = a
    · subst h
      rw [if_pos rfl, ih]
      by_cases hb : b = k
      · simp [hb]
      · simp [hb, Memory.read, Ne.symm hb]
    · rw [if_neg h]
      by_cases hk : k = b
      · subst hk
        simp [Memory.read, h]
      · simp [Memory.read, hk, ih]

theorem Memory.read_insert (m : Memory) (a b : Nat) (v : Byte) :
    Memory.read (Memory.insert m a v) b = if b = a then v else Memory.read m b := by
  induction m with
  | nil =>
    by_cases h : b = a
    · simp [Memory.insert, Memory.read, h]
    · simp [Memory.insert, Memory.read, h, Ne.symm h]
  | cons c m ih =>
    obtain ⟨k, w⟩ := c
    simp only [Memory.insert]
    by_cases hlt : a < k
    · rw [if_pos hlt]
      by_cases hb : b = a
      · simp [Memory.read, hb]
      · simp [Memory.read, hb, Ne.symm hb]
    · rw [if_neg hlt]
      by_cases heq : a = k
      · subst heq
        rw [if_pos rfl]
        by_cases hb : b = a
        · simp [Memory.read, hb]
        · simp [Memory.read, hb, Ne.symm hb]
      · rw [if_neg heq]
        by_cases hk : k = b
        · subst hk
          simp [Memory.read, Ne.symm heq]
        · simp [Memory.read, hk, ih]

/-- A read after a write, at the same address and at every other. -/
theorem Memory.read_write (m : Memory) (a b : Nat) (v : Byte) :
    Memory.read (Memory.write m a v) b = if b = a then v else Memory.read m b := by
  unfold Memory.write
  by_cases h : v = 0
  · rw [if_pos h, Memory.read_erase, h]
  · rw [if_neg h, Memory.read_insert]

/-! ## The canonical form -/

theorem Memory.wfFrom_cons (low k : Nat) (v : Byte) (m : Memory) :
    Memory.wfFrom low ((k, v) :: m) = true ↔ low ≤ k ∧ k < 65536 ∧ v ≠ 0 ∧ Memory.wfFrom (k + 1) m = true := by
  simp [Memory.wfFrom, and_assoc]

theorem Memory.wfFrom_mono {low low' : Nat} {m : Memory} (h : Memory.wfFrom low m = true) (hle : low' ≤ low) :
    Memory.wfFrom low' m = true := by
  cases m with
  | nil => rfl
  | cons c m =>
    obtain ⟨k, v⟩ := c
    rw [Memory.wfFrom_cons] at h ⊢
    exact ⟨hle.trans h.1, h.2⟩

theorem Memory.wfFrom_erase {low : Nat} {m : Memory} (h : Memory.wfFrom low m = true) (a : Nat) :
    Memory.wfFrom low (Memory.erase m a) = true := by
  induction m generalizing low with
  | nil => rfl
  | cons c m ih =>
    obtain ⟨k, v⟩ := c
    rw [Memory.wfFrom_cons] at h
    obtain ⟨h1, h2, h3, h4⟩ := h
    by_cases hk : k = a
    · have : Memory.erase ((k, v) :: m) a = Memory.erase m a := by simp [Memory.erase, hk]
      rw [this]
      exact Memory.wfFrom_mono (ih h4) (by omega)
    · have : Memory.erase ((k, v) :: m) a = (k, v) :: Memory.erase m a := by simp [Memory.erase, hk]
      rw [this, Memory.wfFrom_cons]
      exact ⟨h1, h2, h3, ih h4⟩

theorem Memory.wfFrom_insert {low : Nat} {m : Memory} (h : Memory.wfFrom low m = true) {a : Nat} {v : Byte}
    (hlow : low ≤ a) (ha : a < 65536) (hv : v ≠ 0) : Memory.wfFrom low (Memory.insert m a v) = true := by
  induction m generalizing low with
  | nil => exact (Memory.wfFrom_cons low a v []).2 ⟨hlow, ha, hv, rfl⟩
  | cons c m ih =>
    obtain ⟨k, w⟩ := c
    rw [Memory.wfFrom_cons] at h
    obtain ⟨h1, h2, h3, h4⟩ := h
    simp only [Memory.insert]
    by_cases hlt : a < k
    · rw [if_pos hlt, Memory.wfFrom_cons, Memory.wfFrom_cons]
      exact ⟨hlow, ha, hv, by omega, h2, h3, h4⟩
    · rw [if_neg hlt]
      by_cases heq : a = k
      · subst heq
        rw [if_pos rfl, Memory.wfFrom_cons]
        exact ⟨hlow, ha, hv, h4⟩
      · rw [if_neg heq, Memory.wfFrom_cons]
        exact ⟨h1, h2, h3, ih h4 (by omega)⟩

/-- A write keeps the canonical form. -/
theorem Memory.wf_write {m : Memory} (h : Memory.wf m = true) {a : Nat} (ha : a < 65536) (v : Byte) :
    Memory.wf (Memory.write m a v) = true := by
  unfold Memory.write
  by_cases hv : v = 0
  · rw [if_pos hv]
    exact Memory.wfFrom_erase h a
  · rw [if_neg hv]
    exact Memory.wfFrom_insert h (Nat.zero_le a) ha hv

/-- Below the lowest listed address everything reads as 0. -/
theorem Memory.read_of_wfFrom {low : Nat} {m : Memory} (h : Memory.wfFrom low m = true) {a : Nat} (ha : a < low) :
    Memory.read m a = 0 := by
  induction m generalizing low with
  | nil => rfl
  | cons c m ih =>
    obtain ⟨k, v⟩ := c
    rw [Memory.wfFrom_cons] at h
    have hne : k ≠ a := by omega
    simp only [Memory.read, if_neg hne]
    exact ih h.2.2.2 (by omega)

/-- Canonical memories that read alike are the same list. -/
theorem Memory.ext_of_wfFrom {low : Nat} {m m' : Memory} (h : Memory.wfFrom low m = true)
    (h' : Memory.wfFrom low m' = true) (hr : ∀ a < 65536, Memory.read m a = Memory.read m' a) : m = m' := by
  induction m generalizing low m' with
  | nil =>
    cases m' with
    | nil => rfl
    | cons c m' =>
      obtain ⟨k, v⟩ := c
      rw [Memory.wfFrom_cons] at h'
      have := hr k h'.2.1
      simp only [Memory.read, ↓reduceIte] at this
      exact absurd this.symm h'.2.2.1
  | cons c m ih =>
    obtain ⟨k, v⟩ := c
    rw [Memory.wfFrom_cons] at h
    obtain ⟨h1, h2, h3, h4⟩ := h
    cases m' with
    | nil =>
      have := hr k h2
      simp only [Memory.read, ↓reduceIte] at this
      exact absurd this h3
    | cons c' m' =>
      obtain ⟨k', v'⟩ := c'
      rw [Memory.wfFrom_cons] at h'
      obtain ⟨h1', h2', h3', h4'⟩ := h'
      have hkk : k = k' := by
        rcases Nat.lt_trichotomy k k' with hlt | heq | hgt
        · have e := hr k h2
          simp only [Memory.read, ↓reduceIte, if_neg (show k' ≠ k by omega)] at e
          rw [Memory.read_of_wfFrom h4' (by omega)] at e
          exact absurd e h3
        · exact heq
        · have e := hr k' h2'
          simp only [Memory.read, ↓reduceIte, if_neg (show k ≠ k' by omega)] at e
          rw [Memory.read_of_wfFrom h4 (by omega)] at e
          exact absurd e.symm h3'
      subst hkk
      have hv : v = v' := by
        have e := hr k h2
        simpa [Memory.read] using e
      subst hv
      congr 1
      refine ih h4 h4' fun a ha => ?_
      by_cases hka : a ≤ k
      · rw [Memory.read_of_wfFrom h4 (by omega), Memory.read_of_wfFrom h4' (by omega)]
      · have e := hr a ha
        simpa [Memory.read, show k ≠ a by omega] using e

/-- Equal memories are equal lists. -/
theorem Memory.ext_of_wf {m m' : Memory} (h : Memory.wf m = true) (h' : Memory.wf m' = true)
    (hr : ∀ a < 65536, Memory.read m a = Memory.read m' a) : m = m' := Memory.ext_of_wfFrom h h' hr

/-! ## Bytes and words of the state -/

theorem State.readByte_writeByte (s : State) (a b : Word) (v : Byte) :
    (s.writeByte a v).readByte b = if b = a then v else s.readByte b := by
  have : (b.toNat = a.toNat) ↔ b = a := BitVec.toNat_inj
  simp only [State.readByte, State.writeByte_mem, Memory.read_write, this]

@[simp] theorem State.readByte_writeByte_same (s : State) (a : Word) (v : Byte) :
    (s.writeByte a v).readByte a = v := by rw [State.readByte_writeByte, if_pos rfl]

theorem State.readByte_writeByte_ne (s : State) {a b : Word} (v : Byte) (h : b ≠ a) :
    (s.writeByte a v).readByte b = s.readByte b := by rw [State.readByte_writeByte, if_neg h]

/-- A read depends on the memory alone. -/
theorem State.readByte_congr {s t : State} (h : t.mem = s.mem) (a : Word) : t.readByte a = s.readByte a := by
  simp only [State.readByte, h]

theorem Word.succ_ne (a : Word) : a + 1 ≠ a := by
  intro h
  have := congrArg BitVec.toNat h
  rw [BitVec.toNat_add] at this
  have := a.isLt
  simp at *

theorem State.readByte_writeWord (s : State) (a b v : Word) :
    (s.writeWord a v).readByte b = if b = a + 1 then hi v else if b = a then lo v else s.readByte b := by
  simp only [State.writeWord, State.readByte_writeByte]

/-- A word read back where it was written (R64, R66). -/
@[simp] theorem State.readWord_writeWord (s : State) (a v : Word) : (s.writeWord a v).readWord a = v := by
  simp only [State.readWord, State.readByte_writeWord, ↓reduceIte, if_neg (Word.succ_ne a).symm, pair_hi_lo]

theorem State.wf_writeByte {s : State} (h : Memory.wf s.mem = true) (a : Word) (v : Byte) :
    Memory.wf (s.writeByte a v).mem = true := Memory.wf_write h a.isLt v

theorem State.wf_writeWord {s : State} (h : Memory.wf s.mem = true) (a v : Word) :
    Memory.wf (s.writeWord a v).mem = true := State.wf_writeByte (State.wf_writeByte h a _) _ _

theorem State.wf_storeBytes {s : State} (h : Memory.wf s.mem = true) (a : Word) (bs : List Byte) :
    Memory.wf (s.storeBytes a bs).mem = true := by
  induction bs generalizing s a with
  | nil => exact h
  | cons b bs ih => exact ih (State.wf_writeByte h a b) _

theorem State.wf_load {s : State} (h : Memory.wf s.mem = true) (a : Word) (bs : List Byte) :
    Memory.wf (s.load a bs).mem = true := State.wf_storeBytes h a bs

theorem State.wf_memReset (s : State) : Memory.wf s.memReset.mem = true := rfl

theorem State.wf_withFetchWord {s : State} (h : Memory.wf s.mem = true) (nbits w : Nat) :
    Memory.wf (s.withFetchWord nbits w).mem = true := State.wf_storeBytes h _ _

/-- `load` changes memory only (R63). -/
theorem State.storeBytes_eq (s : State) (a : Word) (bs : List Byte) :
    s.storeBytes a bs = { s with mem := (s.storeBytes a bs).mem } := by
  induction bs generalizing s a with
  | nil => rfl
  | cons b bs ih =>
    simp only [State.storeBytes]
    rw [ih]
    rfl

theorem State.reset_wf : Memory.wf State.reset.mem = true := rfl

end Sys2Proof.Machine
end

