-- ==== Sys2Proof/Laws/Ops.lean ====
section
/-! SUPPORT. What each shared operation can do, said once: the stack primitives, the port calls, the flag bytes, the bounded
repeat, and the branches of a step. -/

namespace Sys2Proof.Machine

/-! ## The stack (60_exceptions.md R431 to R433) -/

/-- The state after a push that does not fault. -/
def State.pushed (s : State) (v : Word) : State :=
  ((s.writeByte (s.sp - 1) (hi v)).writeByte (s.sp - 1 - 1) (lo v)).setSp (s.sp - 1 - 1)

/-- SP at least 2: the word is pushed. -/
theorem State.push16_ok (s : State) (v : Word) (h0 : s.sp ≠ 0) (h1 : s.sp ≠ 1) : s.push16 v = .ok (s.pushed v) := by
  have h2 : s.sp - 1 ≠ 0 := fun h => h1 (by rw [← BitVec.sub_add_cancel s.sp 1, h]; rfl)
  simp only [State.push16, State.pushByte, h0, State.writeByte_sp, State.setSp_sp, h2, ↓reduceIte]
  rfl

/-- SP = 0: nothing is pushed. -/
theorem State.push16_zero (s : State) (v : Word) (h : s.sp = 0) : s.push16 v = .error s.raiseStack := by
  simp only [State.push16, State.pushByte, if_pos h]

/-- SP = 1: the high byte is pushed at address 0, then the fault. -/
theorem State.push16_one (s : State) (v : Word) (h : s.sp = 1) :
    s.push16 v = .error (((s.setSp 0).writeByte 0 (hi v)).raiseStack) := by
  have h0 : s.sp ≠ 0 := by rw [h]; decide
  have h2 : s.sp - 1 = 0 := by rw [h]; decide
  simp only [State.push16, State.pushByte, h0, State.writeByte_sp, State.setSp_sp, h2, ↓reduceIte]

@[simp] theorem State.pushed_sp (s : State) (v : Word) : (s.pushed v).sp = s.sp - 2 := by
  show s.sp - 1 - 1 = s.sp - 2
  rw [BitVec.sub_sub]
  rfl

theorem State.pushed_readByte (s : State) (v a : Word) :
    (s.pushed v).readByte a = if a = s.sp - 2 then lo v else if a = s.sp - 1 then hi v else s.readByte a := by
  have : s.sp - 1 - 1 = s.sp - 2 := by rw [BitVec.sub_sub]; rfl
  rw [State.pushed, State.readByte_congr (State.setSp_mem _ _), State.readByte_writeByte, State.readByte_writeByte, this]

/-- The state after a pop that does not fault. -/
def State.popped (s : State) : State := s.setSp (s.sp + 1 + 1)

/-- SP at most 0xFFFD: the word at SP is popped. -/
theorem State.pop16_ok (s : State) (h0 : s.sp ≠ 0xFFFF) (h1 : s.sp ≠ 0xFFFE) :
    s.pop16 = .ok (s.readWord s.sp, s.popped) := by
  have h2 : s.sp + 1 ≠ 0xFFFF := fun h => h1 (by rw [← BitVec.add_sub_cancel s.sp 1, h]; rfl)
  simp only [State.pop16, State.popByte, h0, State.setSp_sp, h2, ↓reduceIte]
  rfl

/-- SP = 0xFFFF: the first increment faults. -/
theorem State.pop16_top (s : State) (h : s.sp = 0xFFFF) : s.pop16 = .error s.raiseStack := by
  simp only [State.pop16, State.popByte, if_pos h]

/-- SP = 0xFFFE: SP moves to 0xFFFF, then the fault. -/
theorem State.pop16_below_top (s : State) (h : s.sp = 0xFFFE) : s.pop16 = .error ((s.setSp 0xFFFF).raiseStack) := by
  have h0 : s.sp ≠ 0xFFFF := by rw [h]; decide
  have h2 : s.sp + 1 = 0xFFFF := by rw [h]; decide
  simp only [State.pop16, State.popByte, if_neg h0, State.setSp_sp, h2, if_true]

/-- A push never changes anything but memory and SP, except by faulting. -/
theorem State.push16_cases (s : State) (v : Word) :
    (s.sp = 0 ∧ s.push16 v = .error s.raiseStack) ∨
    (s.sp = 1 ∧ s.push16 v = .error (((s.setSp 0).writeByte 0 (hi v)).raiseStack)) ∨
    (s.sp ≠ 0 ∧ s.sp ≠ 1 ∧ s.push16 v = .ok (s.pushed v)) := by
  by_cases h0 : s.sp = 0
  · exact .inl ⟨h0, s.push16_zero v h0⟩
  · by_cases h1 : s.sp = 1
    · exact .inr (.inl ⟨h1, s.push16_one v h1⟩)
    · exact .inr (.inr ⟨h0, h1, s.push16_ok v h0 h1⟩)

theorem State.pop16_cases (s : State) :
    (s.sp = 0xFFFF ∧ s.pop16 = .error s.raiseStack) ∨
    (s.sp = 0xFFFE ∧ s.pop16 = .error ((s.setSp 0xFFFF).raiseStack)) ∨
    (s.sp ≠ 0xFFFF ∧ s.sp ≠ 0xFFFE ∧ s.pop16 = .ok (s.readWord s.sp, s.popped)) := by
  by_cases h0 : s.sp = 0xFFFF
  · exact .inl ⟨h0, s.pop16_top h0⟩
  · by_cases h1 : s.sp = 0xFFFE
    · exact .inr (.inl ⟨h1, s.pop16_below_top h1⟩)
    · exact .inr (.inr ⟨h0, h1, s.pop16_ok h0 h1⟩)

/-- What `pushThen` can answer. -/
theorem pushThen_cases (v : Word) (k : State → State) (s : State) :
    (s.sp = 0 ∧ pushThen v k s = .fault (.stackOutOfRange s.raiseStack)) ∨
    (s.sp = 1 ∧ pushThen v k s = .fault (.stackOutOfRange (((s.setSp 0).writeByte 0 (hi v)).raiseStack))) ∨
    (s.sp ≠ 0 ∧ s.sp ≠ 1 ∧ pushThen v k s = .next (k (s.pushed v))) := by
  rcases s.push16_cases v with ⟨h, e⟩ | ⟨h, e⟩ | ⟨h, h', e⟩
  · exact .inl ⟨h, by simp only [pushThen, e]⟩
  · exact .inr (.inl ⟨h, by simp only [pushThen, e]⟩)
  · exact .inr (.inr ⟨h, h', by simp only [pushThen, e]⟩)

/-- What `popThen` can answer. -/
theorem popThen_cases (k : Word → State → State) (s : State) :
    (s.sp = 0xFFFF ∧ popThen k s = .fault (.stackOutOfRange s.raiseStack)) ∨
    (s.sp = 0xFFFE ∧ popThen k s = .fault (.stackOutOfRange ((s.setSp 0xFFFF).raiseStack))) ∨
    (s.sp ≠ 0xFFFF ∧ s.sp ≠ 0xFFFE ∧ popThen k s = .next (k (s.readWord s.sp) s.popped)) := by
  rcases s.pop16_cases with ⟨h, e⟩ | ⟨h, e⟩ | ⟨h, h', e⟩
  · exact .inl ⟨h, by simp only [popThen, e]⟩
  · exact .inr (.inl ⟨h, by simp only [popThen, e]⟩)
  · exact .inr (.inr ⟨h, h', by simp only [popThen, e]⟩)

theorem pushThen_next (v : Word) (k : State → State) (s : State) (h0 : s.sp ≠ 0) (h1 : s.sp ≠ 1) :
    pushThen v k s = .next (k (s.pushed v)) := by
  simp only [pushThen, s.push16_ok v h0 h1]

theorem popThen_next (k : Word → State → State) (s : State) (h0 : s.sp ≠ 0xFFFF) (h1 : s.sp ≠ 0xFFFE) :
    popThen k s = .next (k (s.readWord s.sp) s.popped) := by
  simp only [popThen, s.pop16_ok h0 h1]

/-- The canonical form survives a push and a pop, faulting or not. -/
theorem State.wf_pushed {s : State} (h : Memory.wf s.mem = true) (v : Word) : Memory.wf (s.pushed v).mem = true :=
  State.wf_writeByte (State.wf_writeByte h _ _) _ _

/-! ## Port calls (20_memory.md R71, R72) -/

/-- A handler call changes nothing but the latch, `halted`, the peripherals' state and the input script. -/
theorem State.callHandler_eq (s : State) (answer : HandlerReply) :
    s.callHandler answer = ((s.replies.headD answer).value, { s with
      pending := s.pending || (s.replies.headD answer).irq
      halted := s.halted && !((s.replies.headD answer).irq && s.iff1)
      peripheral := (s.replies.headD answer).peripheral
      replies := s.replies.tail }) := by
  unfold State.callHandler
  generalize s.replies.headD answer = r
  cases h : r.irq <;> simp [State.interrupt, h]

/-- An input port with no handler (R71). -/
theorem State.portRead_unmapped (s : State) (p : Byte) (h : s.cfg.inPorts.lookup p = none) :
    s.portRead p = (0xFF, s.record (.portIn p 0xFF)) := by
  simp only [State.portRead, h]

theorem State.portRead_mapped (s : State) (p : Byte) (fn : Nat) (h : s.cfg.inPorts.lookup p = some fn) :
    s.portRead p = ((s.callHandler (Config.inHandler fn p s.peripheral)).1,
      (s.callHandler (Config.inHandler fn p s.peripheral)).2.record
        (.portIn p (s.callHandler (Config.inHandler fn p s.peripheral)).1)) := by
  simp only [State.portRead, h]

/-- An input port: nothing changes but the latch, `halted`, the history, the peripherals' state and the input script. -/
theorem State.portRead_eq (s : State) (p : Byte) :
    (s.portRead p).2 = { s with
      pending := (s.portRead p).2.pending
      halted := (s.portRead p).2.halted
      events := s.events ++ [.portIn p (s.portRead p).1]
      peripheral := (s.portRead p).2.peripheral
      replies := (s.portRead p).2.replies } := by
  cases h : s.cfg.inPorts.lookup p with
  | some fn =>
    rw [s.portRead_mapped p fn h, s.callHandler_eq]
    rfl
  | none =>
    rw [s.portRead_unmapped p h]
    rfl

/-- An output port with no handler (R72). -/
theorem State.portWrite_unmapped (s : State) (p v : Byte) (h : s.cfg.outPorts.lookup p = none) :
    s.portWrite p v = s.record (.portOut p v) := by
  simp only [State.portWrite, h]

theorem State.portWrite_mapped (s : State) (p v : Byte) (fn : Nat) (h : s.cfg.outPorts.lookup p = some fn) :
    s.portWrite p v = ((s.record (.portOut p v)).callHandler (Config.outHandler fn p v s.peripheral)).2 := by
  simp only [State.portWrite, h]

/-- An output port: nothing changes but the latch, `halted`, the history, the peripherals' state and the input
script. -/
theorem State.portWrite_eq (s : State) (p v : Byte) :
    s.portWrite p v = { s with
      pending := (s.portWrite p v).pending
      halted := (s.portWrite p v).halted
      events := s.events ++ [.portOut p v]
      peripheral := (s.portWrite p v).peripheral
      replies := (s.portWrite p v).replies } := by
  cases h : s.cfg.outPorts.lookup p with
  | some fn =>
    rw [s.portWrite_mapped p v fn h, State.callHandler_eq]
    rfl
  | none =>
    rw [s.portWrite_unmapped p v h]
    rfl

/-! ## The flag byte (10_state.md R26) -/

theorem flagOf_packF (s z y h x pv n c : Bool) (fl : Flag) :
    flagOf (packF s z y h x pv n c) fl =
      match fl with
      | .s => s | .z => z | .y => y | .h => h | .x => x | .pv => pv | .n => n | .c => c := by
  cases fl <;> cases s <;> cases z <;> cases y <;> cases h <;> cases x <;> cases pv <;> cases n <;> cases c <;> rfl

theorem flagOf_keepYX (f : Byte) (s z h pv n c : Bool) (fl : Flag) :
    flagOf (keepYX f s z h pv n c) fl =
      match fl with
      | .s => s | .z => z | .y => flagOf f .y | .h => h | .x => flagOf f .x | .pv => pv | .n => n | .c => c :=
  flagOf_packF s z (flagOf f .y) h (flagOf f .x) pv n c fl

/-- Two flag bytes with the same eight flags are the same byte. -/
theorem flags_ext {f g : Byte} (h : ∀ fl, flagOf f fl = flagOf g fl) : f = g := by
  apply BitVec.eq_of_getLsbD_eq
  intro i hi
  have : i = 0 ∨ i = 1 ∨ i = 2 ∨ i = 3 ∨ i = 4 ∨ i = 5 ∨ i = 6 ∨ i = 7 := by omega
  rcases this with rfl | rfl | rfl | rfl | rfl | rfl | rfl | rfl
  · exact h .c
  · exact h .n
  · exact h .pv
  · exact h .x
  · exact h .h
  · exact h .y
  · exact h .z
  · exact h .s

/-! ## The bounded repeat (46_block.md R327, R328) -/

/-- What every turn of the body keeps, the repeat keeps. -/
theorem repeatUntil_keeps {stop : State → Bool} {body : State → State} {P : State → Prop}
    (hb : ∀ s, P s → P (body s)) (n : Nat) {s : State} (h : P s) : P (repeatUntil stop body n s) := by
  induction n generalizing s with
  | zero => exact h
  | succ n ih =>
    simp only [repeatUntil]
    split
    · exact hb s h
    · exact ih (hb s h)

theorem repeatUntil_stop {stop : State → Bool} {body : State → State} (n : Nat) {s : State}
    (h : stop (body s) = true) : repeatUntil stop body (n + 1) s = body s := by
  simp only [repeatUntil, if_pos h]

theorem repeatUntil_again {stop : State → Bool} {body : State → State} (n : Nat) {s : State}
    (h : stop (body s) = false) : repeatUntil stop body (n + 1) s = repeatUntil stop body n (body s) := by
  simp only [repeatUntil, h]
  rfl

/-! ## The branches of a step (60_exceptions.md R436) -/

theorem step_faulted (s : State) (c : FaultCause) (h : s.fault = some c) : step s = .fault (c.outcome s) := by
  simp only [step, h]

theorem step_interrupt (s : State) (h : s.fault = none) (hp : s.pending = true) (hi : s.iff1 = true) :
    step s = acknowledge s.unselect := by
  simp [step, h, State.interruptEligible, hp, hi]

theorem step_halted (s : State) (h : s.fault = none) (he : (s.pending && s.iff1) = false) (hh : s.halted = true) :
    step s = .next s.unselect := by
  simp [step, h, State.interruptEligible, he, hh]

theorem step_run (s : State) (h : s.fault = none) (he : (s.pending && s.iff1) = false) (hh : s.halted = false) :
    step s = runUnits maxUnits s.unselect := by
  simp [step, h, State.interruptEligible, he, hh]

/-- One turn of the decode loop at a whole instruction. -/
theorem runUnits_whole (n : Nat) (s : State) (i : Instr) (len : Nat) (hu : s.atUnknownPrimary = false)
    (hd : decodeUnit s.prefixTag s.page (s.bytesFrom 3 s.pc) = some (i, len)) (hs : i.selects s.prefixTag = none) :
    runUnits (n + 1) s = exec i (s.advance len).unselect := by
  simp [runUnits, hu, hd, hs]

/-- One turn of the decode loop at a prefix byte. -/
theorem runUnits_prefix (n : Nat) (s t : State) (i : Instr) (len : Nat) (hu : s.atUnknownPrimary = false)
    (hd : decodeUnit s.prefixTag s.page (s.bytesFrom 3 s.pc) = some (i, len)) {sel : PrefixTag × Page}
    (hs : i.selects s.prefixTag = some sel) (he : exec i (s.advance len) = .next t) :
    runUnits (n + 1) s = runUnits n t := by
  simp [runUnits, hu, hd, hs, he]

/-- The acknowledge pushes PC and goes to the vector (R439), or faults as a push does (R440). -/
theorem acknowledge_cases (s : State) :
    let a : State := { s with iff1 := false, pending := false, halted := false }
    (s.sp = 0 ∧ acknowledge s = .fault (.stackOutOfRange a.raiseStack)) ∨
    (s.sp = 1 ∧ acknowledge s = .fault (.stackOutOfRange (((a.setSp 0).writeByte 0 (hi s.pc)).raiseStack))) ∨
    (s.sp ≠ 0 ∧ s.sp ≠ 1 ∧ acknowledge s = .next ((a.pushed s.pc).setPc interruptVector)) :=
  pushThen_cases s.pc (fun t => t.setPc interruptVector) { s with iff1 := false, pending := false, halted := false }

end Sys2Proof.Machine
end

