-- ==== Sys2Proof/Laws/PerInstr.lean ====
section
/-! SUPPORT. One lemma per constructor of `Instr`: without redundant prefixes an instruction is 1 to 4 bytes long
(30_encoding.md R90). -/

namespace Sys2Proof.Laws.EncodeLength

/-- R90: the length of a whole instruction. -/
def Statement (i : Instr) : Prop := i.WellFormed → 1 ≤ (encode i).length ∧ (encode i).length ≤ 4

/-- An instruction that a prefix leaves alone (R117) is at most 3 bytes long. -/
theorem unaffected_length (i : Instr) (h : i.prefixWithoutEffect = true) :
    1 ≤ (encode i).length ∧ (encode i).length ≤ 3 := by
  cases i <;> first | exact ⟨Nat.le_of_ble_eq_true rfl, Nat.le_of_ble_eq_true rfl⟩ | exact absurd h Bool.false_ne_true

/-- The row of a prefix without effect (R117). -/
def isPOp (i : Instr) : Bool :=
  match i with
  | .pOp _ _ => true
  | _ => false

/-- The length of every term but `pOp`, whose length is that of its inner instruction and one. -/
theorem plain_length (i : Instr) (h : isPOp i = false) : 1 ≤ (encode i).length ∧ (encode i).length ≤ 4 := by
  cases i <;> first | exact ⟨Nat.le_of_ble_eq_true rfl, Nat.le_of_ble_eq_true rfl⟩ | exact absurd h.symm Bool.false_ne_true

theorem nop : Statement .nop := fun _ => plain_length _ rfl
theorem exAfAf : Statement .exAfAf := fun _ => plain_length _ rfl
theorem djnz (e : Byte) : Statement (.djnz e) := fun _ => plain_length _ rfl
theorem jr (e : Byte) : Statement (.jr e) := fun _ => plain_length _ rfl
theorem jrCc (cc : CondJr) (e : Byte) : Statement (.jrCc cc e) := fun _ => plain_length _ rfl
theorem ldRpNn (rp : Rp) (nn : Word) : Statement (.ldRpNn rp nn) := fun _ => plain_length _ rfl
theorem addHlRp (rp : Rp) : Statement (.addHlRp rp) := fun _ => plain_length _ rfl
theorem ldIndBcA : Statement .ldIndBcA := fun _ => plain_length _ rfl
theorem ldIndDeA : Statement .ldIndDeA := fun _ => plain_length _ rfl
theorem ldMemHl (nn : Word) : Statement (.ldMemHl nn) := fun _ => plain_length _ rfl
theorem ldMemA (nn : Word) : Statement (.ldMemA nn) := fun _ => plain_length _ rfl
theorem ldAIndBc : Statement .ldAIndBc := fun _ => plain_length _ rfl
theorem ldAIndDe : Statement .ldAIndDe := fun _ => plain_length _ rfl
theorem ldHlMem (nn : Word) : Statement (.ldHlMem nn) := fun _ => plain_length _ rfl
theorem ldAMem (nn : Word) : Statement (.ldAMem nn) := fun _ => plain_length _ rfl
theorem incRp (rp : Rp) : Statement (.incRp rp) := fun _ => plain_length _ rfl
theorem decRp (rp : Rp) : Statement (.decRp rp) := fun _ => plain_length _ rfl
theorem incR (r : Reg8) : Statement (.incR r) := fun _ => plain_length _ rfl
theorem incIndHl : Statement .incIndHl := fun _ => plain_length _ rfl
theorem decR (r : Reg8) : Statement (.decR r) := fun _ => plain_length _ rfl
theorem decIndHl : Statement .decIndHl := fun _ => plain_length _ rfl
theorem ldRN (r : Reg8) (n : Byte) : Statement (.ldRN r n) := fun _ => plain_length _ rfl
theorem ldIndHlN (n : Byte) : Statement (.ldIndHlN n) := fun _ => plain_length _ rfl
theorem rlca : Statement .rlca := fun _ => plain_length _ rfl
theorem rrca : Statement .rrca := fun _ => plain_length _ rfl
theorem rla : Statement .rla := fun _ => plain_length _ rfl
theorem rra : Statement .rra := fun _ => plain_length _ rfl
theorem daa : Statement .daa := fun _ => plain_length _ rfl
theorem cpl : Statement .cpl := fun _ => plain_length _ rfl
theorem scf : Statement .scf := fun _ => plain_length _ rfl
theorem ccf : Statement .ccf := fun _ => plain_length _ rfl
theorem ldRR (r : Reg8) (r' : Reg8) : Statement (.ldRR r r') := fun _ => plain_length _ rfl
theorem ldRIndHl (r : Reg8) : Statement (.ldRIndHl r) := fun _ => plain_length _ rfl
theorem ldIndHlR (r : Reg8) : Statement (.ldIndHlR r) := fun _ => plain_length _ rfl
theorem halt : Statement .halt := fun _ => plain_length _ rfl
theorem addAR (r : Reg8) : Statement (.addAR r) := fun _ => plain_length _ rfl
theorem addAIndHl : Statement .addAIndHl := fun _ => plain_length _ rfl
theorem addAN (n : Byte) : Statement (.addAN n) := fun _ => plain_length _ rfl
theorem adcAR (r : Reg8) : Statement (.adcAR r) := fun _ => plain_length _ rfl
theorem adcAIndHl : Statement .adcAIndHl := fun _ => plain_length _ rfl
theorem adcAN (n : Byte) : Statement (.adcAN n) := fun _ => plain_length _ rfl
theorem subR (r : Reg8) : Statement (.subR r) := fun _ => plain_length _ rfl
theorem subIndHl : Statement .subIndHl := fun _ => plain_length _ rfl
theorem subN (n : Byte) : Statement (.subN n) := fun _ => plain_length _ rfl
theorem sbcAR (r : Reg8) : Statement (.sbcAR r) := fun _ => plain_length _ rfl
theorem sbcAIndHl : Statement .sbcAIndHl := fun _ => plain_length _ rfl
theorem sbcAN (n : Byte) : Statement (.sbcAN n) := fun _ => plain_length _ rfl
theorem andR (r : Reg8) : Statement (.andR r) := fun _ => plain_length _ rfl
theorem andIndHl : Statement .andIndHl := fun _ => plain_length _ rfl
theorem andN (n : Byte) : Statement (.andN n) := fun _ => plain_length _ rfl
theorem xorR (r : Reg8) : Statement (.xorR r) := fun _ => plain_length _ rfl
theorem xorIndHl : Statement .xorIndHl := fun _ => plain_length _ rfl
theorem xorN (n : Byte) : Statement (.xorN n) := fun _ => plain_length _ rfl
theorem orR (r : Reg8) : Statement (.orR r) := fun _ => plain_length _ rfl
theorem orIndHl : Statement .orIndHl := fun _ => plain_length _ rfl
theorem orN (n : Byte) : Statement (.orN n) := fun _ => plain_length _ rfl
theorem cpR (r : Reg8) : Statement (.cpR r) := fun _ => plain_length _ rfl
theorem cpIndHl : Statement .cpIndHl := fun _ => plain_length _ rfl
theorem cpN (n : Byte) : Statement (.cpN n) := fun _ => plain_length _ rfl
theorem retCc (cc : Cond) : Statement (.retCc cc) := fun _ => plain_length _ rfl
theorem popRp2 (rp2 : Rp2) : Statement (.popRp2 rp2) := fun _ => plain_length _ rfl
theorem ret : Statement .ret := fun _ => plain_length _ rfl
theorem exx : Statement .exx := fun _ => plain_length _ rfl
theorem jpHl : Statement .jpHl := fun _ => plain_length _ rfl
theorem ldSpHl : Statement .ldSpHl := fun _ => plain_length _ rfl
theorem jpCcNn (cc : Cond) (nn : Word) : Statement (.jpCcNn cc nn) := fun _ => plain_length _ rfl
theorem jpNn (nn : Word) : Statement (.jpNn nn) := fun _ => plain_length _ rfl
theorem outNA (n : Byte) : Statement (.outNA n) := fun _ => plain_length _ rfl
theorem inAN (n : Byte) : Statement (.inAN n) := fun _ => plain_length _ rfl
theorem exIndSpHl : Statement .exIndSpHl := fun _ => plain_length _ rfl
theorem exDeHl : Statement .exDeHl := fun _ => plain_length _ rfl
theorem di : Statement .di := fun _ => plain_length _ rfl
theorem ei : Statement .ei := fun _ => plain_length _ rfl
theorem callCcNn (cc : Cond) (nn : Word) : Statement (.callCcNn cc nn) := fun _ => plain_length _ rfl
theorem pushRp2 (rp2 : Rp2) : Statement (.pushRp2 rp2) := fun _ => plain_length _ rfl
theorem callNn (nn : Word) : Statement (.callNn nn) := fun _ => plain_length _ rfl
theorem rst (t : Fin 8) : Statement (.rst t) := fun _ => plain_length _ rfl
theorem prefixCB : Statement .prefixCB := fun _ => plain_length _ rfl
theorem prefixDD : Statement .prefixDD := fun _ => plain_length _ rfl
theorem prefixED : Statement .prefixED := fun _ => plain_length _ rfl
theorem prefixFD : Statement .prefixFD := fun _ => plain_length _ rfl
theorem ldXyNn (x : Idx) (nn : Word) : Statement (.ldXyNn x nn) := fun _ => plain_length _ rfl
theorem ldMemXy (x : Idx) (nn : Word) : Statement (.ldMemXy x nn) := fun _ => plain_length _ rfl
theorem ldXyMem (x : Idx) (nn : Word) : Statement (.ldXyMem x nn) := fun _ => plain_length _ rfl
theorem incXy (x : Idx) : Statement (.incXy x) := fun _ => plain_length _ rfl
theorem decXy (x : Idx) : Statement (.decXy x) := fun _ => plain_length _ rfl
theorem addXyRp (x : Idx) (rp : RpX) : Statement (.addXyRp x rp) := fun _ => plain_length _ rfl
theorem pushXy (x : Idx) : Statement (.pushXy x) := fun _ => plain_length _ rfl
theorem popXy (x : Idx) : Statement (.popXy x) := fun _ => plain_length _ rfl
theorem exIndSpXy (x : Idx) : Statement (.exIndSpXy x) := fun _ => plain_length _ rfl
theorem jpXy (x : Idx) : Statement (.jpXy x) := fun _ => plain_length _ rfl
theorem ldSpXy (x : Idx) : Statement (.ldSpXy x) := fun _ => plain_length _ rfl
theorem incIdx (x : Idx) (d : Byte) : Statement (.incIdx x d) := fun _ => plain_length _ rfl
theorem decIdx (x : Idx) (d : Byte) : Statement (.decIdx x d) := fun _ => plain_length _ rfl
theorem ldIdxN (x : Idx) (d : Byte) (n : Byte) : Statement (.ldIdxN x d n) := fun _ => plain_length _ rfl
theorem ldRIdx (r : Reg8) (x : Idx) (d : Byte) : Statement (.ldRIdx r x d) := fun _ => plain_length _ rfl
theorem ldIdxR (x : Idx) (d : Byte) (r : Reg8) : Statement (.ldIdxR x d r) := fun _ => plain_length _ rfl
theorem addAIdx (x : Idx) (d : Byte) : Statement (.addAIdx x d) := fun _ => plain_length _ rfl
theorem addAHalf (x : Idx) (hf : Half) : Statement (.addAHalf x hf) := fun _ => plain_length _ rfl
theorem adcAIdx (x : Idx) (d : Byte) : Statement (.adcAIdx x d) := fun _ => plain_length _ rfl
theorem adcAHalf (x : Idx) (hf : Half) : Statement (.adcAHalf x hf) := fun _ => plain_length _ rfl
theorem subIdx (x : Idx) (d : Byte) : Statement (.subIdx x d) := fun _ => plain_length _ rfl
theorem subHalf (x : Idx) (hf : Half) : Statement (.subHalf x hf) := fun _ => plain_length _ rfl
theorem sbcAIdx (x : Idx) (d : Byte) : Statement (.sbcAIdx x d) := fun _ => plain_length _ rfl
theorem sbcAHalf (x : Idx) (hf : Half) : Statement (.sbcAHalf x hf) := fun _ => plain_length _ rfl
theorem andIdx (x : Idx) (d : Byte) : Statement (.andIdx x d) := fun _ => plain_length _ rfl
theorem andHalf (x : Idx) (hf : Half) : Statement (.andHalf x hf) := fun _ => plain_length _ rfl
theorem xorIdx (x : Idx) (d : Byte) : Statement (.xorIdx x d) := fun _ => plain_length _ rfl
theorem xorHalf (x : Idx) (hf : Half) : Statement (.xorHalf x hf) := fun _ => plain_length _ rfl
theorem orIdx (x : Idx) (d : Byte) : Statement (.orIdx x d) := fun _ => plain_length _ rfl
theorem orHalf (x : Idx) (hf : Half) : Statement (.orHalf x hf) := fun _ => plain_length _ rfl
theorem cpIdx (x : Idx) (d : Byte) : Statement (.cpIdx x d) := fun _ => plain_length _ rfl
theorem cpHalf (x : Idx) (hf : Half) : Statement (.cpHalf x hf) := fun _ => plain_length _ rfl
theorem incHalf (x : Idx) (hf : Half) : Statement (.incHalf x hf) := fun _ => plain_length _ rfl
theorem decHalf (x : Idx) (hf : Half) : Statement (.decHalf x hf) := fun _ => plain_length _ rfl
theorem ldHalfN (x : Idx) (hf : Half) (n : Byte) : Statement (.ldHalfN x hf n) := fun _ => plain_length _ rfl
theorem ldRRHalf (x : Idx) (r : RegX) (r' : RegX) : Statement (.ldRRHalf x r r') := fun _ => plain_length _ rfl
theorem pOp (x : Idx) (i : Instr) : Statement (.pOp x i) := by
  intro h
  have := unaffected_length i h
  have e : (encode (.pOp x i)).length = (encode i).length + 1 := rfl
  omega
theorem rlcR (r : Reg8) : Statement (.rlcR r) := fun _ => plain_length _ rfl
theorem rlcIndHl : Statement .rlcIndHl := fun _ => plain_length _ rfl
theorem rlcIdx (x : Idx) (d : Byte) : Statement (.rlcIdx x d) := fun _ => plain_length _ rfl
theorem rrcR (r : Reg8) : Statement (.rrcR r) := fun _ => plain_length _ rfl
theorem rrcIndHl : Statement .rrcIndHl := fun _ => plain_length _ rfl
theorem rrcIdx (x : Idx) (d : Byte) : Statement (.rrcIdx x d) := fun _ => plain_length _ rfl
theorem rlR (r : Reg8) : Statement (.rlR r) := fun _ => plain_length _ rfl
theorem rlIndHl : Statement .rlIndHl := fun _ => plain_length _ rfl
theorem rlIdx (x : Idx) (d : Byte) : Statement (.rlIdx x d) := fun _ => plain_length _ rfl
theorem rrR (r : Reg8) : Statement (.rrR r) := fun _ => plain_length _ rfl
theorem rrIndHl : Statement .rrIndHl := fun _ => plain_length _ rfl
theorem rrIdx (x : Idx) (d : Byte) : Statement (.rrIdx x d) := fun _ => plain_length _ rfl
theorem slaR (r : Reg8) : Statement (.slaR r) := fun _ => plain_length _ rfl
theorem slaIndHl : Statement .slaIndHl := fun _ => plain_length _ rfl
theorem slaIdx (x : Idx) (d : Byte) : Statement (.slaIdx x d) := fun _ => plain_length _ rfl
theorem sraR (r : Reg8) : Statement (.sraR r) := fun _ => plain_length _ rfl
theorem sraIndHl : Statement .sraIndHl := fun _ => plain_length _ rfl
theorem sraIdx (x : Idx) (d : Byte) : Statement (.sraIdx x d) := fun _ => plain_length _ rfl
theorem unknownCb (z : Fin 8) : Statement (.unknownCb z) := fun _ => plain_length _ rfl
theorem srlR (r : Reg8) : Statement (.srlR r) := fun _ => plain_length _ rfl
theorem srlIndHl : Statement .srlIndHl := fun _ => plain_length _ rfl
theorem srlIdx (x : Idx) (d : Byte) : Statement (.srlIdx x d) := fun _ => plain_length _ rfl
theorem bitR (b : Fin 8) (r : Reg8) : Statement (.bitR b r) := fun _ => plain_length _ rfl
theorem bitIndHl (b : Fin 8) : Statement (.bitIndHl b) := fun _ => plain_length _ rfl
theorem bitIdx (b : Fin 8) (x : Idx) (d : Byte) : Statement (.bitIdx b x d) := fun _ => plain_length _ rfl
theorem resR (b : Fin 8) (r : Reg8) : Statement (.resR b r) := fun _ => plain_length _ rfl
theorem resIndHl (b : Fin 8) : Statement (.resIndHl b) := fun _ => plain_length _ rfl
theorem resIdx (b : Fin 8) (x : Idx) (d : Byte) : Statement (.resIdx b x d) := fun _ => plain_length _ rfl
theorem setR (b : Fin 8) (r : Reg8) : Statement (.setR b r) := fun _ => plain_length _ rfl
theorem setIndHl (b : Fin 8) : Statement (.setIndHl b) := fun _ => plain_length _ rfl
theorem setIdx (b : Fin 8) (x : Idx) (d : Byte) : Statement (.setIdx b x d) := fun _ => plain_length _ rfl
theorem unknownIndexCb (x : Idx) (d : Byte) (s : Byte) : Statement (.unknownIndexCb x d s) := fun _ => plain_length _ rfl
theorem unknownIndexCb36 (x : Idx) (d : Byte) : Statement (.unknownIndexCb36 x d) := fun _ => plain_length _ rfl
theorem inRC (r : Reg8) : Statement (.inRC r) := fun _ => plain_length _ rfl
theorem outCR (r : Reg8) : Statement (.outCR r) := fun _ => plain_length _ rfl
theorem sbcHlRp (rp : Rp) : Statement (.sbcHlRp rp) := fun _ => plain_length _ rfl
theorem adcHlRp (rp : Rp) : Statement (.adcHlRp rp) := fun _ => plain_length _ rfl
theorem ldMemRp (nn : Word) (rp : Rp) : Statement (.ldMemRp nn rp) := fun _ => plain_length _ rfl
theorem ldRpMem (rp : Rp) (nn : Word) : Statement (.ldRpMem rp nn) := fun _ => plain_length _ rfl
theorem neg : Statement .neg := fun _ => plain_length _ rfl
theorem retn : Statement .retn := fun _ => plain_length _ rfl
theorem reti : Statement .reti := fun _ => plain_length _ rfl
theorem im0 : Statement .im0 := fun _ => plain_length _ rfl
theorem im1 : Statement .im1 := fun _ => plain_length _ rfl
theorem im2 : Statement .im2 := fun _ => plain_length _ rfl
theorem ldIA : Statement .ldIA := fun _ => plain_length _ rfl
theorem ldRA : Statement .ldRA := fun _ => plain_length _ rfl
theorem ldAI : Statement .ldAI := fun _ => plain_length _ rfl
theorem ldAR : Statement .ldAR := fun _ => plain_length _ rfl
theorem rrd : Statement .rrd := fun _ => plain_length _ rfl
theorem rld : Statement .rld := fun _ => plain_length _ rfl
theorem ldi : Statement .ldi := fun _ => plain_length _ rfl
theorem cpi : Statement .cpi := fun _ => plain_length _ rfl
theorem ini : Statement .ini := fun _ => plain_length _ rfl
theorem outi : Statement .outi := fun _ => plain_length _ rfl
theorem ldd : Statement .ldd := fun _ => plain_length _ rfl
theorem cpd : Statement .cpd := fun _ => plain_length _ rfl
theorem ind : Statement .ind := fun _ => plain_length _ rfl
theorem outd : Statement .outd := fun _ => plain_length _ rfl
theorem ldir : Statement .ldir := fun _ => plain_length _ rfl
theorem cpir : Statement .cpir := fun _ => plain_length _ rfl
theorem inir : Statement .inir := fun _ => plain_length _ rfl
theorem otir : Statement .otir := fun _ => plain_length _ rfl
theorem lddr : Statement .lddr := fun _ => plain_length _ rfl
theorem cpdr : Statement .cpdr := fun _ => plain_length _ rfl
theorem indr : Statement .indr := fun _ => plain_length _ rfl
theorem otdr : Statement .otdr := fun _ => plain_length _ rfl
theorem unknownEd (s : Byte) : Statement (.unknownEd s) := fun _ => plain_length _ rfl

end Sys2Proof.Laws.EncodeLength
end

