-- ==== Sys2Proof/Tests/Slice0.lean ====
section
/-! SUPPORT. The model's own tests. Words are written out from the encodings of spec/opcode_table.json, results are taken
from the vectors of 95_test_vectors.md (named in each comment); the last part gives a concrete state and operands for the
hypotheses of every statement that has some. -/

namespace Sys2Proof.Tests

set_option Elab.async false

open Sys2Proof Sys2Proof.Machine

/-! ## WellFormed: one ill-formed term for each check -/

theorem test_wf_prefix_byte_refused : [Instr.prefixCB, .prefixDD, .prefixED, .prefixFD].any Instr.wellFormed = false := by
  decide +kernel

/-- R117: the prefix does affect `LD H,5`, `INC HL`, `PUSH HL`, `ADD A,(HL)`, a CB or ED row and another prefix. -/
theorem test_wf_affected_op_refused :
    [Instr.ldRN .h 5, .incRp .hl, .pushRp2 .hl, .addAIndHl, .rlcR .b, .ldir, .pOp .ix .nop].any
      (fun i => (Instr.pOp .iy i).wellFormed) = false := by
  decide +kernel

theorem test_wf_two_plain_registers_refused : (Instr.ldRRHalf .ix .b .a).wellFormed = false := by decide +kernel

/-- The sub-opcodes 06 and 46 under DD CB are RLC and BIT. -/
theorem test_wf_defined_index_cb_refused :
    [0x06, 0x46].any (fun s => (Instr.unknownIndexCb .ix 1 s).wellFormed) = false := by
  decide +kernel

theorem test_wf_defined_ed_refused : [0x44, 0xB0, 0x7B].any (fun s => (Instr.unknownEd s).wellFormed) = false := by
  decide +kernel

theorem test_wf_accepted :
    [Instr.pOp .iy (.ldRN .b 5), .ldRRHalf .ix .xyh .a, .unknownIndexCb .ix 1 0x07, .unknownEd 0x70].all Instr.wellFormed := by
  decide +kernel

/-! ## Decoding: every row of the table, by a word written out from its `encoding` -/

/-- Each word decodes to its instruction and to no byte more or less, zeros following. -/
def decodesAll (l : List (List Byte × Instr)) : Bool :=
  l.all fun p => decode (p.1 ++ [0, 0]) == some (p.2, p.1.length)

theorem test_decode_main_1 : decodesAll [
    ([0x00], .nop), ([0x08], .exAfAf), ([0x10, 0x5A], .djnz 0x5A), ([0x18, 0x7F], .jr 0x7F),
    ([0x20, 0xFE], .jrCc .nz 0xFE), ([0x01, 0x13, 0x81], .ldRpNn .bc 0x8113), ([0x19], .addHlRp .de),
    ([0x02], .ldIndBcA), ([0x12], .ldIndDeA), ([0x22, 0x5A, 0x7F], .ldMemHl 0x7F5A),
    ([0x32, 0xFE, 0x13], .ldMemA 0x13FE), ([0x0A], .ldAIndBc), ([0x1A], .ldAIndDe),
    ([0x2A, 0x81, 0x5A], .ldHlMem 0x5A81)] := by
  decide +kernel

theorem test_decode_main_2 : decodesAll [
    ([0x3A, 0x7F, 0xFE], .ldAMem 0xFE7F), ([0x23], .incRp .hl), ([0x3B], .decRp .sp), ([0x04], .incR .b),
    ([0x34], .incIndHl), ([0x0D], .decR .c), ([0x35], .decIndHl), ([0x16, 0x13], .ldRN .d 0x13),
    ([0x36, 0x81], .ldIndHlN 0x81), ([0x07], .rlca), ([0x0F], .rrca), ([0x17], .rla), ([0x1F], .rra),
    ([0x27], .daa)] := by
  decide +kernel

theorem test_decode_main_3 : decodesAll [
    ([0x2F], .cpl), ([0x37], .scf), ([0x3F], .ccf), ([0x5C], .ldRR .e .h), ([0x6E], .ldRIndHl .l),
    ([0x77], .ldIndHlR .a), ([0x76], .halt), ([0x80], .addAR .b), ([0x86], .addAIndHl), ([0xC6, 0x5A], .addAN 0x5A),
    ([0x89], .adcAR .c), ([0x8E], .adcAIndHl), ([0xCE, 0x7F], .adcAN 0x7F), ([0x92], .subR .d)] := by
  decide +kernel

theorem test_decode_main_4 : decodesAll [
    ([0x96], .subIndHl), ([0xD6, 0xFE], .subN 0xFE), ([0x9B], .sbcAR .e), ([0x9E], .sbcAIndHl),
    ([0xDE, 0x13], .sbcAN 0x13), ([0xA4], .andR .h), ([0xA6], .andIndHl), ([0xE6, 0x81], .andN 0x81),
    ([0xAD], .xorR .l), ([0xAE], .xorIndHl), ([0xEE, 0x5A], .xorN 0x5A), ([0xB7], .orR .a), ([0xB6], .orIndHl),
    ([0xF6, 0x7F], .orN 0x7F)] := by
  decide +kernel

theorem test_decode_main_5 : decodesAll [
    ([0xB8], .cpR .b), ([0xBE], .cpIndHl), ([0xFE, 0xFE], .cpN 0xFE), ([0xC0], .retCc .nz), ([0xC1], .popRp2 .bc),
    ([0xC9], .ret), ([0xD9], .exx), ([0xE9], .jpHl), ([0xF9], .ldSpHl), ([0xCA, 0x13, 0x81], .jpCcNn .z 0x8113),
    ([0xC3, 0x5A, 0x7F], .jpNn 0x7F5A), ([0xD3, 0xFE], .outNA 0xFE), ([0xDB, 0x13], .inAN 0x13),
    ([0xE3], .exIndSpHl)] := by
  decide +kernel

theorem test_decode_main_6 : decodesAll [
    ([0xEB], .exDeHl), ([0xF3], .di), ([0xFB], .ei), ([0xD4, 0x81, 0x5A], .callCcNn .nc 0x5A81),
    ([0xD5], .pushRp2 .de), ([0xCD, 0x7F, 0xFE], .callNn 0xFE7F), ([0xC7], .rst 0)] := by
  decide +kernel

theorem test_decode_index_1 : decodesAll [
    ([0xDD, 0x21, 0x13, 0x81], .ldXyNn .ix 0x8113), ([0xFD, 0x22, 0x5A, 0x7F], .ldMemXy .iy 0x7F5A),
    ([0xDD, 0x2A, 0xFE, 0x13], .ldXyMem .ix 0x13FE), ([0xFD, 0x23], .incXy .iy), ([0xDD, 0x2B], .decXy .ix),
    ([0xFD, 0x09], .addXyRp .iy .bc), ([0xDD, 0xE5], .pushXy .ix), ([0xFD, 0xE1], .popXy .iy),
    ([0xDD, 0xE3], .exIndSpXy .ix), ([0xFD, 0xE9], .jpXy .iy), ([0xDD, 0xF9], .ldSpXy .ix),
    ([0xFD, 0x34, 0x81], .incIdx .iy 0x81), ([0xDD, 0x35, 0x5A], .decIdx .ix 0x5A),
    ([0xFD, 0x36, 0x7F, 0xFE], .ldIdxN .iy 0x7F 0xFE)] := by
  decide +kernel

theorem test_decode_index_2 : decodesAll [
    ([0xDD, 0x4E, 0x13], .ldRIdx .c .ix 0x13), ([0xFD, 0x72, 0x81], .ldIdxR .iy 0x81 .d),
    ([0xDD, 0x86, 0x5A], .addAIdx .ix 0x5A), ([0xFD, 0x84], .addAHalf .iy .high),
    ([0xDD, 0x8E, 0x7F], .adcAIdx .ix 0x7F), ([0xFD, 0x8D], .adcAHalf .iy .low),
    ([0xDD, 0x96, 0xFE], .subIdx .ix 0xFE), ([0xFD, 0x94], .subHalf .iy .high),
    ([0xDD, 0x9E, 0x13], .sbcAIdx .ix 0x13), ([0xFD, 0x9D], .sbcAHalf .iy .low),
    ([0xDD, 0xA6, 0x81], .andIdx .ix 0x81), ([0xFD, 0xA4], .andHalf .iy .high),
    ([0xDD, 0xAE, 0x5A], .xorIdx .ix 0x5A), ([0xFD, 0xAD], .xorHalf .iy .low)] := by
  decide +kernel

theorem test_decode_index_3 : decodesAll [
    ([0xDD, 0xB6, 0x7F], .orIdx .ix 0x7F), ([0xFD, 0xB4], .orHalf .iy .high), ([0xDD, 0xBE, 0xFE], .cpIdx .ix 0xFE),
    ([0xFD, 0xBD], .cpHalf .iy .low), ([0xDD, 0x24], .incHalf .ix .high), ([0xFD, 0x2D], .decHalf .iy .low),
    ([0xDD, 0x26, 0x13], .ldHalfN .ix .high 0x13), ([0xFD, 0x65], .ldRRHalf .iy .xyh .xyl),
    ([0xFD, 0x3E, 0x05], .pOp .iy (.ldRN .a 5)), ([0xDD, 0x76], .pOp .ix .halt)] := by
  decide +kernel

theorem test_decode_cb_1 : decodesAll [
    ([0xCB, 0x03], .rlcR .e), ([0xCB, 0x06], .rlcIndHl), ([0xCB, 0x0C], .rrcR .h), ([0xCB, 0x0E], .rrcIndHl),
    ([0xCB, 0x15], .rlR .l), ([0xCB, 0x16], .rlIndHl), ([0xCB, 0x1F], .rrR .a), ([0xCB, 0x1E], .rrIndHl),
    ([0xCB, 0x20], .slaR .b), ([0xCB, 0x26], .slaIndHl), ([0xCB, 0x29], .sraR .c), ([0xCB, 0x2E], .sraIndHl),
    ([0xCB, 0x31], .unknownCb 1), ([0xCB, 0x3A], .srlR .d)] := by
  decide +kernel

theorem test_decode_cb_2 : decodesAll [
    ([0xCB, 0x3E], .srlIndHl), ([0xCB, 0x53], .bitR 2 .e), ([0xCB, 0x5E], .bitIndHl 3), ([0xCB, 0xAC], .resR 5 .h),
    ([0xCB, 0xB6], .resIndHl 6), ([0xCB, 0xC5], .setR 0 .l), ([0xCB, 0xCE], .setIndHl 1)] := by
  decide +kernel

theorem test_decode_index_cb_1 : decodesAll [
    ([0xDD, 0xCB, 0x81, 0x06], .rlcIdx .ix 0x81), ([0xFD, 0xCB, 0x5A, 0x0E], .rrcIdx .iy 0x5A),
    ([0xDD, 0xCB, 0x7F, 0x16], .rlIdx .ix 0x7F), ([0xFD, 0xCB, 0xFE, 0x1E], .rrIdx .iy 0xFE),
    ([0xDD, 0xCB, 0x13, 0x26], .slaIdx .ix 0x13), ([0xFD, 0xCB, 0x81, 0x2E], .sraIdx .iy 0x81),
    ([0xDD, 0xCB, 0x5A, 0x3E], .srlIdx .ix 0x5A), ([0xFD, 0xCB, 0x7F, 0x66], .bitIdx 4 .iy 0x7F),
    ([0xDD, 0xCB, 0xFE, 0xBE], .resIdx 7 .ix 0xFE), ([0xFD, 0xCB, 0x13, 0xD6], .setIdx 2 .iy 0x13),
    ([0xDD, 0xCB, 0x81, 0x47], .unknownIndexCb .ix 0x81 0x47),
    ([0xFD, 0xCB, 0x7F, 0x36], .unknownIndexCb36 .iy 0x7F)] := by
  decide +kernel

theorem test_decode_ed_1 : decodesAll [
    ([0xED, 0x78], .inRC .a), ([0xED, 0x41], .outCR .b), ([0xED, 0x42], .sbcHlRp .bc), ([0xED, 0x5A], .adcHlRp .de),
    ([0xED, 0x63, 0xFE, 0x13], .ldMemRp 0x13FE .hl), ([0xED, 0x7B, 0x81, 0x5A], .ldRpMem .sp 0x5A81),
    ([0xED, 0x44], .neg), ([0xED, 0x45], .retn), ([0xED, 0x4D], .reti), ([0xED, 0x46], .im0), ([0xED, 0x56], .im1),
    ([0xED, 0x5E], .im2), ([0xED, 0x47], .ldIA), ([0xED, 0x4F], .ldRA)] := by
  decide +kernel

theorem test_decode_ed_2 : decodesAll [
    ([0xED, 0x57], .ldAI), ([0xED, 0x5F], .ldAR), ([0xED, 0x67], .rrd), ([0xED, 0x6F], .rld), ([0xED, 0xA0], .ldi),
    ([0xED, 0xA1], .cpi), ([0xED, 0xA2], .ini), ([0xED, 0xA3], .outi), ([0xED, 0xA8], .ldd), ([0xED, 0xA9], .cpd),
    ([0xED, 0xAA], .ind), ([0xED, 0xAB], .outd), ([0xED, 0xB0], .ldir), ([0xED, 0xB1], .cpir)] := by
  decide +kernel

theorem test_decode_ed_3 : decodesAll [
    ([0xED, 0xB2], .inir), ([0xED, 0xB3], .otir), ([0xED, 0xB8], .lddr), ([0xED, 0xB9], .cpdr), ([0xED, 0xBA], .indr),
    ([0xED, 0xBB], .otdr), ([0xED, 0x71], .unknownEd 0x71)] := by
  decide +kernel

/-- The rows of the four prefix bytes (log entry 10), and a row under a prefix. -/
theorem test_decode_table_word :
    [decodeTableWord 8 0xCB, decodeTableWord 8 0xDD, decodeTableWord 8 0xED, decodeTableWord 8 0xFD] =
      [some .prefixCB, some .prefixDD, some .prefixED, some .prefixFD] ∧
    decodeTableWord 32 0x06FFCBDD = some (.rlcIdx .ix 0xFF) ∧ decodeTableWord 24 0x001234C3 ≠ decodeTableWord 24 0x003412C3 ∧
    decodeTableWord 24 0x1234C3 = some (.jpNn 0x1234) := by
  decide +kernel

/-- Only bytes that run out decode to nothing. -/
theorem test_decode_needs_bytes :
    [decode [], decode [0xDD], decode [0xCB], decode [0xDD, 0xCB, 0x01], decode [0x21, 0x00]] = [none, none, none, none, none] := by
  decide +kernel

/-! ## One step: vectors of 95_test_vectors.md -/

/-- The state after the bytes are placed at PC of the changed reset state and one step is done meets the check. -/
def after (bytes : List Byte) (setup : State → State) (check : State → Bool) : Bool :=
  let s := setup State.reset
  match step (s.storeBytes s.pc bytes) with
  | .next t => check t
  | _ => false

/-- The step ends in a stack fault whose state meets the check. -/
def stackFault (bytes : List Byte) (setup : State → State) (check : State → Bool) : Bool :=
  let s := setup State.reset
  match step (s.storeBytes s.pc bytes) with
  | .fault (.stackOutOfRange t) => t.halted && t.fault == some .stackOutOfRange && check t
  | _ => false

/-- L8-01 -/
theorem test_l8_01 : after [0x41] (fun s => s |>.setReg .c 0x5A) (fun t => t.main.b == 0x5A && t.pc == 0x0001) := by
      decide +kernel

/-- L8-06 -/
theorem test_l8_06 : after [0xDD, 0x66, 0x05] (fun s => s |>.setReg .h 0x11 |>.setReg .l 0x11 |>.setXy .ix 0x4000
      |>.writeByte 0x4005 0xAB) (fun t => t.main.h == 0xAB && t.pc == 0x0003) := by decide +kernel

/-- L8-07 -/
theorem test_l8_07 : after [0xDD, 0x65] (fun s => s |>.setReg .h 0x55 |>.setReg .l 0x66 |>.setXy .ix 0x12CD)
      (fun t => t.ix == 0xCDCD && t.pc == 0x0002) := by decide +kernel

/-- L8-10 -/
theorem test_l8_10 : after [0xFD, 0x75, 0xFE] (fun s => s |>.setReg .h 0x22 |>.setReg .l 0x33 |>.setXy .iy 0x4000)
      (fun t => t.pc == 0x0003 && t.readByte 0x3FFE == 0x33) := by decide +kernel

/-- L8-11 -/
theorem test_l8_11 : after [0xDD, 0x36, 0xFF, 0x5A] id (fun t => t.pc == 0x0004 && t.readByte 0xFFFF == 0x5A) := by
      decide +kernel

/-- L8-14 -/
theorem test_l8_14 : after [0x3A, 0x34, 0x12] (fun s => s |>.writeByte 0x1234 0xC3) (fun t => t.main.a == 0xC3 &&
      t.pc == 0x0003) := by decide +kernel

/-- L8-16 -/
theorem test_l8_16 : after [0xED, 0x47] (fun s => s |>.setReg .a 0x80) (fun t => t.pc == 0x0002 &&
      t.regI == 0x80) := by decide +kernel

/-- L8-17 -/
theorem test_l8_17 : after [0xED, 0x57] (fun s => { s with regI := 0x80, iff2 := true } |>.setF 0xFF)
      (fun t => t.main.a == 0x80 && t.main.f == 0xAD && t.pc == 0x0002) := by decide +kernel

/-- L8-18 -/
theorem test_l8_18 : after [0xED, 0x5F] (fun s => s |>.setF 0x01) (fun t => t.main.f == 0x41 && t.pc == 0x0002) := by
      decide +kernel

/-- L16-04 -/
theorem test_l16_04 : after [0x2A, 0xFF, 0xFF] (fun s => s |>.writeByte 0xFFFF 0x11 |>.writeByte 0x0000 0x2A)
      (fun t => t.main.h == 0x2A && t.main.l == 0x11 && t.pc == 0x0003) := by decide +kernel

/-- L16-05 -/
theorem test_l16_05 : after [0xFD, 0x2A, 0x00, 0x40] (fun s => s |>.writeByte 0x4000 0x78 |>.writeByte 0x4001 0x56)
      (fun t => t.iy == 0x5678 && t.pc == 0x0004) := by decide +kernel

/-- L16-06 -/
theorem test_l16_06 : after [0xED, 0x4B, 0x00, 0x40] (fun s => s |>.writeByte 0x4000 0x78 |>.writeByte 0x4001 0x56)
      (fun t => t.main.b == 0x56 && t.main.c == 0x78 && t.pc == 0x0004) := by decide +kernel

/-- L16-09 -/
theorem test_l16_09 : after [0xED, 0x73, 0x00, 0x80] (fun s => s |>.setSp 0x8FFE) (fun t => t.pc == 0x0004 &&
      t.readByte 0x8000 == 0xFE && t.readByte 0x8001 == 0x8F) := by decide +kernel

/-- L16-12 -/
theorem test_l16_12 : after [0xC5] (fun s => s |>.setReg .b 0x12 |>.setReg .c 0x34 |>.setSp 0x9000)
      (fun t => t.sp == 0x8FFE && t.pc == 0x0001 && t.readByte 0x8FFE == 0x34 && t.readByte 0x8FFF == 0x12) := by
      decide +kernel

/-- L16-14 -/
theorem test_l16_14 : after [0xF1] (fun s => s |>.setSp 0x8000 |>.writeByte 0x8000 0xFF |>.writeByte 0x8001 0x12)
      (fun t => t.main.a == 0x12 && t.main.f == 0xFF && t.sp == 0x8002 && t.pc == 0x0001) := by decide +kernel

/-- L16-16 -/
theorem test_l16_16 : after [0xC5] (fun s => s |>.setPc 0x0100 |>.setReg .b 0xA1 |>.setReg .c 0xB2 |>.setSp 0x0002)
      (fun t => t.sp == 0x0000 && t.pc == 0x0101 && t.readByte 0x0000 == 0xB2 && t.readByte 0x0001 == 0xA1) := by
      decide +kernel

/-- L16-17 -/
theorem test_l16_17 : stackFault [0xC5] (fun s => s |>.setPc 0x0100 |>.setReg .b 0xA1 |>.setReg .c 0xB2
      |>.setSp 0x0001) (fun t => t.sp == 0x0000 && t.pc == 0x0101 && t.readByte 0x0000 == 0xA1) := by decide +kernel

/-- L16-18 -/
theorem test_l16_18 : stackFault [0xC5] (fun s => s |>.setPc 0x0100 |>.setReg .b 0xA1 |>.setReg .c 0xB2
      |>.setSp 0x0000) (fun t => t.pc == 0x0101) := by decide +kernel

/-- L16-19 -/
theorem test_l16_19 : stackFault [0xC1] (fun s => s |>.setSp 0xFFFE |>.writeByte 0xFFFE 0x34 |>.writeByte 0xFFFF 0x12)
      (fun t => t.sp == 0xFFFF && t.pc == 0x0001) := by decide +kernel

/-- L16-20 -/
theorem test_l16_20 : stackFault [0xC1] (fun s => s |>.writeByte 0xFFFF 0x12) (fun t => t.pc == 0x0001) := by
      decide +kernel

/-- L16-21 -/
theorem test_l16_21 : after [0xC1] (fun s => s |>.setSp 0xFFFD |>.writeByte 0xFFFD 0x34 |>.writeByte 0xFFFE 0x12)
      (fun t => t.main.b == 0x12 && t.main.c == 0x34 && t.sp == 0xFFFF && t.pc == 0x0001) := by decide +kernel

/-- L16-23 -/
theorem test_l16_23 : after [0xDD, 0xEB] (fun s => s |>.setReg .d 0x11 |>.setReg .e 0x11 |>.setReg .h 0x22
      |>.setReg .l 0x22 |>.setXy .ix 0x3333) (fun t => t.main.d == 0x22 && t.main.e == 0x22 && t.main.h == 0x11 &&
      t.main.l == 0x11 && t.pc == 0x0002) := by decide +kernel

/-- L16-24 -/
theorem test_l16_24 : after [0x08] (fun s => { s with shadow := { Bank.reset with a := 0x56, f := 0x78 } }
      |>.setReg .a 0x12 |>.setF 0x34) (fun t => t.main.a == 0x56 && t.main.f == 0x78 && t.shadow.a == 0x12 &&
      t.shadow.f == 0x34 && t.pc == 0x0001) := by decide +kernel

/-- L16-25 -/
theorem test_l16_25 : after [0xD9]
      (fun s => { s with shadow := { Bank.reset with b := 0x11, c := 0x12, d := 0x13, e := 0x14, h := 0x15, l := 0x16 } }
      |>.setReg .a 0x77 |>.setReg .b 0x01 |>.setReg .c 0x02 |>.setReg .d 0x03 |>.setReg .e 0x04 |>.setReg .h 0x05
      |>.setReg .l 0x06) (fun t => t.main.b == 0x11 && t.main.c == 0x12 && t.main.d == 0x13 && t.main.e == 0x14 &&
      t.main.h == 0x15 && t.main.l == 0x16 && t.shadow.b == 0x01 && t.shadow.c == 0x02 && t.shadow.d == 0x03 &&
      t.shadow.e == 0x04 && t.shadow.h == 0x05 && t.shadow.l == 0x06 && t.pc == 0x0001) := by decide +kernel

/-- L16-27 -/
theorem test_l16_27 : after [0xDD, 0xE3] (fun s => s |>.setReg .h 0x55 |>.setReg .l 0x55 |>.setXy .ix 0x1234
      |>.setSp 0x8000 |>.writeByte 0x8000 0xCD |>.writeByte 0x8001 0xAB) (fun t => t.ix == 0xABCD && t.pc == 0x0002 &&
      t.readByte 0x8000 == 0x34 && t.readByte 0x8001 == 0x12) := by decide +kernel

/-- L16-28 -/
theorem test_l16_28 : after [0xE3] (fun s => s |>.setReg .h 0x12 |>.setReg .l 0x34 |>.writeByte 0xFFFF 0xCD
      |>.writeByte 0x0000 0xE3) (fun t => t.main.h == 0xE3 && t.main.l == 0xCD && t.pc == 0x0001 &&
      t.readByte 0x0000 == 0x12 && t.readByte 0xFFFF == 0x34) := by decide +kernel

/-- A8-03 -/
theorem test_a8_03 : after [0x80] (fun s => s |>.setReg .a 0x80 |>.setReg .b 0x80) (fun t => t.main.a == 0x00 &&
      t.main.f == 0x45 && t.pc == 0x0001) := by decide +kernel

/-- A8-05 -/
theorem test_a8_05 : after [0xCE, 0x0F] (fun s => s |>.setF 0x01) (fun t => t.main.a == 0x10 && t.main.f == 0x10 &&
      t.pc == 0x0002) := by decide +kernel

/-- A8-10 -/
theorem test_a8_10 : after [0xDE, 0xFF] (fun s => s |>.setF 0x01) (fun t => t.main.f == 0x53 && t.pc == 0x0002) := by
      decide +kernel

/-- A8-11 -/
theorem test_a8_11 : after [0xE6, 0x0F] (fun s => s |>.setReg .a 0xF0 |>.setF 0xFF) (fun t => t.main.a == 0x00 &&
      t.main.f == 0x44 && t.pc == 0x0002) := by decide +kernel

/-- A8-14 -/
theorem test_a8_14 : after [0xEE, 0x01] (fun s => s |>.setReg .a 0x80) (fun t => t.main.a == 0x81 &&
      t.main.f == 0x84 && t.pc == 0x0002) := by decide +kernel

/-- A8-17 -/
theorem test_a8_17 : after [0xFE, 0x20] (fun s => s |>.setReg .a 0x10 |>.setF 0x28) (fun t => t.main.f == 0x83 &&
      t.pc == 0x0002) := by decide +kernel

/-- A8-20 -/
theorem test_a8_20 : after [0xFD, 0x96, 0xFF] (fun s => s |>.setReg .a 0x10 |>.setXy .iy 0x4001
      |>.writeByte 0x4000 0x01) (fun t => t.main.a == 0x0F && t.main.f == 0x12 && t.pc == 0x0003) := by decide +kernel

/-- A8-22 -/
theorem test_a8_22 : after [0xDD, 0xAD] (fun s => s |>.setReg .a 0xFF |>.setXy .ix 0x000F)
      (fun t => t.main.a == 0xF0 && t.main.f == 0x84 && t.pc == 0x0002) := by decide +kernel

/-- A8-23 -/
theorem test_a8_23 : after [0x3C] (fun s => s |>.setReg .a 0x7F |>.setF 0x01) (fun t => t.main.a == 0x80 &&
      t.main.f == 0x95 && t.pc == 0x0001) := by decide +kernel

/-- A8-27 -/
theorem test_a8_27 : after [0x3D] (fun s => s |>.setF 0x01) (fun t => t.main.a == 0xFF && t.main.f == 0x93 &&
      t.pc == 0x0001) := by decide +kernel

/-- A8-30 -/
theorem test_a8_30 : after [0xDD, 0x35, 0x02] (fun s => s |>.setXy .ix 0x4000 |>.writeByte 0x4002 0x00)
      (fun t => t.main.f == 0x92 && t.pc == 0x0003 && t.readByte 0x4002 == 0xFF) := by decide +kernel

/-- A8-31 -/
theorem test_a8_31 : after [0xDD, 0x24] (fun s => s |>.setReg .h 0x12 |>.setReg .l 0x34 |>.setXy .ix 0x7F00)
      (fun t => t.main.f == 0x94 && t.ix == 0x8000 && t.pc == 0x0002) := by decide +kernel

/-- A8-35 -/
theorem test_a8_35 : after [0x27] (fun s => s |>.setReg .a 0xFF |>.setF 0x13) (fun t => t.main.a == 0x99 &&
      t.main.f == 0x87 && t.pc == 0x0001) := by decide +kernel

/-- A8-37 -/
theorem test_a8_37 : after [0x27] (fun s => s |>.setReg .a 0x0F |>.setF 0x12) (fun t => t.main.a == 0x09 &&
      t.main.f == 0x06 && t.pc == 0x0001) := by decide +kernel

/-- A8-38 -/
theorem test_a8_38 : after [0x2F] (fun s => s |>.setReg .a 0x0F) (fun t => t.main.a == 0xF0 && t.main.f == 0x12 &&
      t.pc == 0x0001) := by decide +kernel

/-- A8-40 -/
theorem test_a8_40 : after [0xED, 0x44] (fun s => s |>.setReg .a 0x80 |>.setF 0x28) (fun t => t.main.f == 0x87 &&
      t.pc == 0x0002) := by decide +kernel

/-- A8-43 -/
theorem test_a8_43 : after [0x3F] (fun s => s |>.setF 0x01) (fun t => t.main.f == 0x10 && t.pc == 0x0001) := by
      decide +kernel

/-- A16-01 -/
theorem test_a16_01 : after [0x09] (fun s => s |>.setF 0xC4 |>.setReg .c 0x01 |>.setReg .h 0x0F |>.setReg .l 0xFF)
      (fun t => t.main.f == 0xD4 && t.main.h == 0x10 && t.main.l == 0x00 && t.pc == 0x0001) := by decide +kernel

/-- A16-04 -/
theorem test_a16_04 : after [0xDD, 0x29] (fun s => s |>.setReg .h 0x11 |>.setReg .l 0x11 |>.setXy .ix 0x4001)
      (fun t => t.ix == 0x8002 && t.pc == 0x0002) := by decide +kernel

/-- A16-07 -/
theorem test_a16_07 : after [0xED, 0x4A] (fun s => s |>.setReg .c 0x01 |>.setReg .h 0x7F |>.setReg .l 0xFF)
      (fun t => t.main.f == 0x94 && t.main.h == 0x80 && t.main.l == 0x00 && t.pc == 0x0002) := by decide +kernel

/-- A16-12 -/
theorem test_a16_12 : after [0xED, 0x52] (fun s => s |>.setReg .e 0x01 |>.setReg .h 0x80)
      (fun t => t.main.f == 0x16 && t.main.h == 0x7F && t.main.l == 0xFF && t.pc == 0x0002) := by decide +kernel

/-- A16-14 -/
theorem test_a16_14 : after [0xDD, 0xED, 0x4A] (fun s => s |>.setReg .c 0x01 |>.setReg .l 0x01 |>.setXy .ix 0x5555)
      (fun t => t.main.l == 0x02 && t.pc == 0x0003) := by decide +kernel

/-- A16-15 -/
theorem test_a16_15 : after [0x03] (fun s => s |>.setF 0xFF |>.setReg .b 0xFF |>.setReg .c 0xFF)
      (fun t => t.main.b == 0x00 && t.main.c == 0x00 && t.pc == 0x0001) := by decide +kernel

/-- A16-19 -/
theorem test_a16_19 : stackFault [0x33] id (fun t => t.pc == 0x0001) := by decide +kernel

/-- A16-21 -/
theorem test_a16_21 : after [0x3B] (fun s => s |>.setSp 0x0001) (fun t => t.sp == 0x0000 && t.pc == 0x0001) := by
      decide +kernel

/-- RS-01 -/
theorem test_rs_01 : after [0x07] (fun s => s |>.setReg .a 0x80 |>.setF 0xD6) (fun t => t.main.a == 0x01 &&
      t.main.f == 0xC5 && t.pc == 0x0001) := by decide +kernel

/-- RS-04 -/
theorem test_rs_04 : after [0x17] (fun s => s |>.setReg .a 0x01 |>.setF 0x01) (fun t => t.main.a == 0x03 &&
      t.main.f == 0x00 && t.pc == 0x0001) := by decide +kernel

/-- RS-08 -/
theorem test_rs_08 : after [0xCB, 0x0E] (fun s => s |>.setReg .h 0x40 |>.writeByte 0x4000 0x01)
      (fun t => t.main.f == 0x81 && t.pc == 0x0002 && t.readByte 0x4000 == 0x80) := by decide +kernel

/-- RS-10 -/
theorem test_rs_10 : after [0xCB, 0x1A] (fun s => s |>.setF 0x01 |>.setReg .d 0x01) (fun t => t.main.f == 0x81 &&
      t.main.d == 0x80 && t.pc == 0x0002) := by decide +kernel

/-- RS-12 -/
theorem test_rs_12 : after [0xCB, 0x2C] (fun s => s |>.setReg .h 0x81) (fun t => t.main.f == 0x85 &&
      t.main.h == 0xC0 && t.pc == 0x0002) := by decide +kernel

/-- RS-13 -/
theorem test_rs_13 : after [0xCB, 0x3D] (fun s => s |>.setReg .l 0x81) (fun t => t.main.f == 0x01 &&
      t.main.l == 0x40 && t.pc == 0x0002) := by decide +kernel

/-- RS-15 -/
theorem test_rs_15 : after [0xCB, 0x30] (fun s => s |>.setF 0x55 |>.setReg .b 0x81) (fun t => t.pc == 0x0002 &&
      t.events == [.ignored .cb 0x30 0x0001]) := by decide +kernel

/-- RS-18 -/
theorem test_rs_18 : after [0xCB, 0x47] (fun s => s |>.setReg .a 0x80 |>.setF 0x85) (fun t => t.main.f == 0xD5 &&
      t.pc == 0x0002) := by decide +kernel

/-- RS-22 -/
theorem test_rs_22 : after [0xDD, 0xCB, 0x02, 0x06] (fun s => s |>.setXy .ix 0x4000 |>.writeByte 0x4002 0x81)
      (fun t => t.main.f == 0x05 && t.pc == 0x0004 && t.readByte 0x4002 == 0x03) := by decide +kernel

/-- RS-23 -/
theorem test_rs_23 : after [0xFD, 0xCB, 0xFF, 0x7E] (fun s => s |>.setXy .iy 0x4001 |>.writeByte 0x4000 0x80)
      (fun t => t.main.f == 0x10 && t.pc == 0x0004) := by decide +kernel

/-- RS-24 -/
theorem test_rs_24 : after [0xDD, 0xCB, 0x00, 0xC6] (fun s => s |>.setXy .ix 0x4000 |>.writeByte 0x4000 0x10)
      (fun t => t.pc == 0x0004 && t.readByte 0x4000 == 0x11) := by decide +kernel

/-- RS-25 -/
theorem test_rs_25 : after [0xDD, 0xCB, 0x00, 0x8E] (fun s => s |>.setXy .ix 0x4000 |>.writeByte 0x4000 0xFF)
      (fun t => t.pc == 0x0004 && t.readByte 0x4000 == 0xFD) := by decide +kernel

/-- RS-26 -/
theorem test_rs_26 : after [0xDD, 0xCB, 0x02, 0x00] (fun s => s |>.setReg .b 0x55 |>.setXy .ix 0x4000
      |>.writeByte 0x4002 0x81) (fun t => t.pc == 0x0004 && t.events == [.ignored .cb 0x00 0x0003]) := by
      decide +kernel

/-- RS-28 -/
theorem test_rs_28 : after [0xED, 0x67] (fun s => s |>.setReg .a 0x84 |>.setF 0x01 |>.setReg .h 0x50
      |>.writeByte 0x5000 0x20) (fun t => t.main.a == 0x80 && t.main.f == 0x81 && t.pc == 0x0002 &&
      t.readByte 0x5000 == 0x42) := by decide +kernel

/-- RS-29 -/
theorem test_rs_29 : after [0xED, 0x6F] (fun s => s |>.setReg .a 0x7A |>.setReg .h 0x50 |>.writeByte 0x5000 0x31)
      (fun t => t.main.a == 0x73 && t.pc == 0x0002 && t.readByte 0x5000 == 0x1A) := by decide +kernel

/-- CF-02 -/
theorem test_cf_02 : after [0xC2, 0x00, 0x80] (fun s => s |>.setF 0x40) (fun t => t.pc == 0x0003) := by decide +kernel

/-- CF-03 -/
theorem test_cf_03 : after [0xCA, 0x00, 0x80] (fun s => s |>.setF 0x40) (fun t => t.pc == 0x8000) := by decide +kernel

/-- CF-09 -/
theorem test_cf_09 : after [0xDD, 0xE9] (fun s => s |>.setReg .h 0x12 |>.setReg .l 0x34 |>.setXy .ix 0x4321)
      (fun t => t.pc == 0x4321) := by decide +kernel

/-- CF-12 -/
theorem test_cf_12 : after [0x18, 0x80] (fun s => s |>.setPc 0x0100) (fun t => t.pc == 0x0082) := by decide +kernel

/-- CF-13 -/
theorem test_cf_13 : after [0x18, 0x10] (fun s => s |>.setPc 0xFFFE) (fun t => t.pc == 0x0010) := by decide +kernel

/-- CF-14 -/
theorem test_cf_14 : after [0x38, 0x05] (fun s => s |>.setPc 0x0100) (fun t => t.pc == 0x0102) := by decide +kernel

/-- CF-16 -/
theorem test_cf_16 : after [0x28, 0xFC] (fun s => s |>.setPc 0x0100 |>.setF 0x40) (fun t => t.pc == 0x00FE) := by
      decide +kernel

/-- CF-17 -/
theorem test_cf_17 : after [0x10, 0xFE] (fun s => s |>.setPc 0x0100 |>.setReg .b 0x01) (fun t => t.main.b == 0x00 &&
      t.pc == 0x0102) := by decide +kernel

/-- CF-18 -/
theorem test_cf_18 : after [0x10, 0xFE] (fun s => s |>.setPc 0x0100 |>.setF 0xFF) (fun t => t.main.b == 0xFF &&
      t.pc == 0x0100) := by decide +kernel

/-- CF-20 -/
theorem test_cf_20 : after [0xC4, 0x00, 0x80] (fun s => s |>.setPc 0x0100 |>.setF 0x40 |>.setSp 0x9000)
      (fun t => t.pc == 0x0103) := by decide +kernel

/-- CF-21 -/
theorem test_cf_21 : after [0xDC, 0x00, 0x80] (fun s => s |>.setPc 0x0100 |>.setF 0x01 |>.setSp 0x9000)
      (fun t => t.sp == 0x8FFE && t.pc == 0x8000 && t.readByte 0x8FFE == 0x03 && t.readByte 0x8FFF == 0x01) := by
      decide +kernel

/-- CF-23 -/
theorem test_cf_23 : after [0xC8] (fun s => s |>.setSp 0x8FFE |>.writeByte 0x8FFE 0x37 |>.writeByte 0x8FFF 0x12)
      (fun t => t.pc == 0x0001) := by decide +kernel

/-- CF-24 -/
theorem test_cf_24 : after [0xD0] (fun s => s |>.setSp 0x8FFE |>.writeByte 0x8FFE 0x37 |>.writeByte 0x8FFF 0x12)
      (fun t => t.sp == 0x9000 && t.pc == 0x1237) := by decide +kernel

/-- CF-25 -/
theorem test_cf_25 : after [0xEF] (fun s => s |>.setPc 0x0200 |>.setSp 0x9000) (fun t => t.sp == 0x8FFE &&
      t.pc == 0x0028 && t.readByte 0x8FFE == 0x01 && t.readByte 0x8FFF == 0x02) := by decide +kernel

/-- CF-28 -/
theorem test_cf_28 : after [0xED, 0x4D] (fun s => { s with iff2 := true } |>.setPc 0x0040 |>.setSp 0x8FFE
      |>.writeByte 0x8FFE 0x09 |>.writeByte 0x8FFF 0x00) (fun t => t.sp == 0x9000 && t.pc == 0x0009) := by
      decide +kernel

/-- CF-29 -/
theorem test_cf_29 : after [0xED, 0x45] (fun s => { s with iff2 := true } |>.setPc 0x0040 |>.setSp 0x8FFE
      |>.writeByte 0x8FFE 0x09 |>.writeByte 0x8FFF 0x00) (fun t => t.sp == 0x9000 && t.pc == 0x0009 && t.iff1) := by
      decide +kernel

/-- CF-30 -/
theorem test_cf_30 : stackFault [0xCD, 0x00, 0x80] (fun s => s |>.setPc 0x0100 |>.setSp 0x0001)
      (fun t => t.sp == 0x0000 && t.pc == 0x0103 && t.readByte 0x0000 == 0x01) := by decide +kernel

/-- CF-31 -/
theorem test_cf_31 : stackFault [0xC9] (fun s => s |>.setPc 0x0100) (fun t => t.pc == 0x0101) := by decide +kernel

/-- BL-01 -/
theorem test_bl_01 : after [0xED, 0xA0] (fun s => s |>.setF 0xFF |>.setReg .c 0x02 |>.setReg .d 0x20 |>.setReg .h 0x10
      |>.writeByte 0x1000 0xAA) (fun t => t.main.f == 0xED && t.main.c == 0x01 && t.main.e == 0x01 &&
      t.main.l == 0x01 && t.pc == 0x0002 && t.readByte 0x2000 == 0xAA) := by decide +kernel

/-- BL-03 -/
theorem test_bl_03 : after [0xED, 0xA8] (fun s => s |>.setReg .d 0x20 |>.setReg .h 0x10 |>.writeByte 0x1000 0xAA)
      (fun t => t.main.f == 0x04 && t.main.b == 0xFF && t.main.c == 0xFF && t.main.d == 0x1F && t.main.e == 0xFF &&
      t.main.h == 0x0F && t.main.l == 0xFF && t.pc == 0x0002 && t.readByte 0x2000 == 0xAA) := by decide +kernel

/-- BL-04 -/
theorem test_bl_04 : after [0xED, 0xB0] (fun s => s |>.setReg .c 0x04 |>.setReg .d 0x10 |>.setReg .e 0x01
      |>.setReg .h 0x10 |>.writeByte 0x1000 0x5A) (fun t => t.main.c == 0x00 && t.main.e == 0x05 &&
      t.main.l == 0x04 && t.pc == 0x0002 && t.readByte 0x1001 == 0x5A && t.readByte 0x1002 == 0x5A &&
      t.readByte 0x1003 == 0x5A && t.readByte 0x1004 == 0x5A) := by decide +kernel

/-- BL-05 -/
theorem test_bl_05 : after [0xED, 0xB8] (fun s => s |>.setReg .c 0x04 |>.setReg .d 0x10 |>.setReg .e 0x04
      |>.setReg .h 0x10 |>.setReg .l 0x03 |>.writeByte 0x1000 0x01 |>.writeByte 0x1001 0x02 |>.writeByte 0x1002 0x03
      |>.writeByte 0x1003 0x04) (fun t => t.main.c == 0x00 && t.main.e == 0x00 && t.main.h == 0x0F &&
      t.main.l == 0xFF && t.pc == 0x0002 && t.readByte 0x1001 == 0x01 && t.readByte 0x1002 == 0x02 &&
      t.readByte 0x1003 == 0x03 && t.readByte 0x1004 == 0x04) := by decide +kernel

/-- BL-07 -/
theorem test_bl_07 : after [0xED, 0xA1] (fun s => s |>.setReg .a 0x10 |>.setF 0x01 |>.setReg .c 0x02 |>.setReg .h 0x10
      |>.writeByte 0x1000 0x10) (fun t => t.main.f == 0x47 && t.main.c == 0x01 && t.main.l == 0x01 &&
      t.pc == 0x0002) := by decide +kernel

/-- BL-09 -/
theorem test_bl_09 : after [0xED, 0xA9] (fun s => s |>.setReg .h 0x10 |>.writeByte 0x1000 0x00)
      (fun t => t.main.f == 0x46 && t.main.b == 0xFF && t.main.c == 0xFF && t.main.h == 0x0F && t.main.l == 0xFF &&
      t.pc == 0x0002) := by decide +kernel

/-- BL-10 -/
theorem test_bl_10 : after [0xED, 0xB1] (fun s => s |>.setReg .a 0x03 |>.setReg .c 0x05 |>.setReg .h 0x10
      |>.writeByte 0x1000 0x01 |>.writeByte 0x1001 0x02 |>.writeByte 0x1002 0x03 |>.writeByte 0x1003 0x03)
      (fun t => t.main.f == 0x46 && t.main.c == 0x02 && t.main.l == 0x03 && t.pc == 0x0002) := by decide +kernel

/-- BL-13 -/
theorem test_bl_13 : after [0xED, 0xB9] (fun s => s |>.setReg .a 0x02 |>.setReg .c 0x03 |>.setReg .h 0x10
      |>.setReg .l 0x02 |>.writeByte 0x1000 0x01 |>.writeByte 0x1001 0x02 |>.writeByte 0x1002 0x03)
      (fun t => t.main.f == 0x46 && t.main.c == 0x01 && t.main.l == 0x00 && t.pc == 0x0002) := by decide +kernel

/-- BL-15 -/
theorem test_bl_15 : after [0xED, 0xA2] (fun s => s |>.setF 0x41 |>.setReg .b 0x02 |>.setReg .c 0x60
      |>.setReg .h 0x50) (fun t => t.main.f == 0x03 && t.main.b == 0x01 && t.main.l == 0x01 && t.pc == 0x0002 &&
      t.readByte 0x5000 == 0xFF && t.events == [.portIn 0x60 0xFF]) := by decide +kernel

/-- BL-16 -/
theorem test_bl_16 : after [0xED, 0xAA] (fun s => { s with cfg.inPorts := [(0x40, 0)], replies := [⟨0x07, false, 0⟩] }
      |>.setReg .c 0x40 |>.setReg .h 0x50) (fun t => t.main.f == 0x02 && t.main.b == 0xFF && t.main.h == 0x4F &&
      t.main.l == 0xFF && t.pc == 0x0002 && t.readByte 0x5000 == 0x07 && t.events == [.portIn 0x40 0x07]) := by
      decide +kernel

/-- BL-17 -/
theorem test_bl_17 : after [0xED, 0xB2]
      (fun s => { s with cfg.inPorts := [(0x40, 0)], replies := [⟨0x01, false, 0⟩, ⟨0x02, false, 0⟩, ⟨0x03, false, 0⟩] }
      |>.setReg .b 0x03 |>.setReg .c 0x40 |>.setReg .h 0x50) (fun t => t.main.f == 0x42 && t.main.b == 0x00 &&
      t.main.l == 0x03 && t.pc == 0x0002 && t.readByte 0x5000 == 0x01 && t.readByte 0x5001 == 0x02 &&
      t.readByte 0x5002 == 0x03 && t.events == [.portIn 0x40 0x01, .portIn 0x40 0x02, .portIn 0x40 0x03]) := by
      decide +kernel

/-- BL-18 -/
theorem test_bl_18 : after [0xED, 0xBA]
      (fun s => { s with cfg.inPorts := [(0x40, 0)], replies := [⟨0x01, false, 0⟩, ⟨0x02, false, 0⟩] }
      |>.setReg .b 0x02 |>.setReg .c 0x40 |>.setReg .h 0x50 |>.setReg .l 0x01) (fun t => t.main.f == 0x42 &&
      t.main.b == 0x00 && t.main.h == 0x4F && t.main.l == 0xFF && t.pc == 0x0002 && t.readByte 0x5000 == 0x02 &&
      t.readByte 0x5001 == 0x01 && t.events == [.portIn 0x40 0x01, .portIn 0x40 0x02]) := by decide +kernel

/-- BL-19 -/
theorem test_bl_19 : after [0xED, 0xA3] (fun s => s |>.setReg .b 0x02 |>.setReg .c 0x17 |>.setReg .h 0x50
      |>.writeByte 0x5000 0x3F) (fun t => t.main.f == 0x02 && t.main.b == 0x01 && t.main.l == 0x01 &&
      t.pc == 0x0002 && t.events == [.portOut 0x17 0x3F]) := by decide +kernel

/-- BL-20 -/
theorem test_bl_20 : after [0xED, 0xAB] (fun s => s |>.setReg .b 0x01 |>.setReg .c 0x17 |>.setReg .h 0x50
      |>.writeByte 0x5000 0x3F) (fun t => t.main.f == 0x42 && t.main.b == 0x00 && t.main.h == 0x4F &&
      t.main.l == 0xFF && t.pc == 0x0002 && t.events == [.portOut 0x17 0x3F]) := by decide +kernel

/-- BL-21 -/
theorem test_bl_21 : after [0xED, 0xB3] (fun s => s |>.setReg .b 0x03 |>.setReg .c 0x10 |>.setReg .h 0x50
      |>.writeByte 0x5000 0x06 |>.writeByte 0x5001 0x5B |>.writeByte 0x5002 0x4F) (fun t => t.main.f == 0x42 &&
      t.main.b == 0x00 && t.main.l == 0x03 && t.pc == 0x0002 &&
      t.events == [.portOut 0x10 0x06, .portOut 0x10 0x5B, .portOut 0x10 0x4F]) := by decide +kernel

/-- BL-22 -/
theorem test_bl_22 : after [0xED, 0xBB] (fun s => s |>.setReg .b 0x02 |>.setReg .c 0x10 |>.setReg .h 0x50
      |>.setReg .l 0x01 |>.writeByte 0x5000 0x06 |>.writeByte 0x5001 0x5B) (fun t => t.main.f == 0x42 &&
      t.main.b == 0x00 && t.main.h == 0x4F && t.main.l == 0xFF && t.pc == 0x0002 &&
      t.events == [.portOut 0x10 0x5B, .portOut 0x10 0x06]) := by decide +kernel

/-- IO-02 -/
theorem test_io_02 : after [0xDB, 0x40] (fun s => { s with cfg.inPorts := [(0x40, 0)], replies := [⟨0x0B, false, 0⟩] }
      |>.setReg .a 0x12) (fun t => t.main.a == 0x0B && t.pc == 0x0002 && t.events == [.portIn 0x40 0x0B]) := by
      decide +kernel

/-- IO-03 -/
theorem test_io_03 : after [0xD3, 0x17] (fun s => s |>.setReg .a 0x3F) (fun t => t.pc == 0x0002 &&
      t.events == [.portOut 0x17 0x3F]) := by decide +kernel

/-- IO-05 -/
theorem test_io_05 : after [0xED, 0x40] (fun s => { s with cfg.inPorts := [(0x40, 0)], replies := [⟨0x00, false, 0⟩] }
      |>.setF 0xFF |>.setReg .c 0x40) (fun t => t.main.f == 0x6D && t.pc == 0x0002 &&
      t.events == [.portIn 0x40 0x00]) := by decide +kernel

/-- IO-07 -/
theorem test_io_07 : after [0xDD, 0xED, 0x60]
      (fun s => { s with cfg.inPorts := [(0x40, 0)], replies := [⟨0x07, false, 0⟩] } |>.setReg .c 0x40
      |>.setXy .ix 0x1111) (fun t => t.main.h == 0x07 && t.pc == 0x0003 && t.events == [.portIn 0x40 0x07]) := by
      decide +kernel

/-- IO-09 -/
theorem test_io_09 : after [0xED, 0x41] (fun s => s |>.setReg .b 0x55 |>.setReg .c 0x17) (fun t => t.pc == 0x0002 &&
      t.events == [.portOut 0x17 0x55]) := by decide +kernel

/-- IO-10 -/
theorem test_io_10 : after [0xED, 0x70] (fun s => { s with cfg.inPorts := [(0x40, 0)], replies := [⟨0x00, false, 0⟩] }
      |>.setReg .c 0x40) (fun t => t.pc == 0x0002 && t.events == [.ignored .ed 0x70 0x0001]) := by decide +kernel

/-- IO-13 -/
theorem test_io_13 : after [0x76] id (fun t => t.pc == 0x0001 && t.halted) := by decide +kernel

/-- IO-15 -/
theorem test_io_15 : after [0xFB] id (fun t => t.pc == 0x0001 && t.iff1 && t.iff2) := by decide +kernel

/-- IO-16 -/
theorem test_io_16 : after [0xF3] (fun s => { s with iff1 := true, iff2 := true }) (fun t => t.pc == 0x0001 &&
      !t.iff1 && !t.iff2) := by decide +kernel

/-- IO-18 -/
theorem test_io_18 : after [0xED, 0x5E] id (fun t => t.pc == 0x0002 && t.im == .im2) := by decide +kernel

/-- IO-20 -/
theorem test_io_20 : after [0xDD, 0x76] (fun s => s |>.setXy .ix 0x4000) (fun t => t.pc == 0x0002 && t.halted) := by
      decide +kernel

/-- IO-22 -/
theorem test_io_22 : after [0xDD, 0xFD, 0x21, 0x34, 0x12] id (fun t => t.iy == 0x1234 && t.pc == 0x0005) := by
      decide +kernel

/-- IO-26 -/
theorem test_io_26 : after [0xED, 0x4C] (fun s => s |>.setReg .a 0x01) (fun t => t.pc == 0x0002 &&
      t.events == [.ignored .ed 0x4C 0x0001]) := by decide +kernel

/-- IO-28 -/
theorem test_io_28 : after [0xDD, 0xED, 0xA0] (fun s => s |>.setReg .c 0x01 |>.setReg .d 0x20 |>.setReg .h 0x10
      |>.setXy .ix 0x3000 |>.writeByte 0x1000 0x99) (fun t => t.main.c == 0x00 && t.main.e == 0x01 &&
      t.main.l == 0x01 && t.pc == 0x0003 && t.readByte 0x2000 == 0x99) := by decide +kernel

/-- EX-01 -/
theorem test_ex_01 : after [0x00, 0x00] (fun s => { s with iff1 := true, iff2 := true, pending := true }
      |>.setPc 0x1234 |>.setSp 0x9000) (fun t => t.sp == 0x8FFE && t.pc == 0x0038 && !t.iff1 &&
      t.readByte 0x8FFE == 0x34 && t.readByte 0x8FFF == 0x12) := by decide +kernel

/-- EX-06 -/
theorem test_ex_06 : stackFault [0x00] (fun s => { s with iff1 := true, iff2 := true, pending := true }
      |>.setPc 0x0100 |>.setSp 0x0001) (fun t => t.sp == 0x0000 && t.pc == 0x0100 && !t.iff1 &&
      t.readByte 0x0000 == 0x01) := by decide +kernel

/-- EX-07 -/
theorem test_ex_07 : stackFault [0x00] (fun s => { s with iff1 := true, iff2 := true, pending := true }
      |>.setPc 0x0100 |>.setSp 0x0000) (fun t => t.pc == 0x0100 && !t.iff1) := by decide +kernel

/-- EX-10 -/
theorem test_ex_10 : after [0x00]
      (fun s => { s with regI := 0x80, iff1 := true, iff2 := true, im := .im2, pending := true } |>.setPc 0x0100
      |>.setSp 0x9000) (fun t => t.sp == 0x8FFE && t.pc == 0x0038 && !t.iff1 && t.readByte 0x8FFF == 0x01) := by
      decide +kernel

/-- Part 1 of 95_test_vectors.md, S6: LDIR copies four bytes in one step. -/
theorem test_s6_ldir : after [0xED, 0xB0]
    (fun s => (s.setRp .hl 0x000C |>.setRp .de 0x0010 |>.setRp .bc 4).storeBytes 0x000C [0xAA, 0xBB, 0xCC, 0xDD])
    (fun t => t.bytesFrom 4 0x0010 == [0xAA, 0xBB, 0xCC, 0xDD] && t.main.bc == 0 && !t.flag .pv) := by
  decide +kernel

/-- EX-02: a request while interrupts are disabled stays latched and the instruction runs. -/
theorem test_ex_02 : after [0x3C] (fun s => s.interrupt) (fun t => t.main.a == 1 && t.pending && t.pc == 1) := by
  decide +kernel

/-- EX-05: HALT with interrupts disabled: a step does nothing. -/
theorem test_ex_05 : after [0x00] (fun s => { s with halted := true }.interrupt)
    (fun t => t.halted && t.pending && t.pc == 0) := by
  decide +kernel

/-- EX-08: a faulted CPU returns the same fault and changes nothing. -/
theorem test_ex_08 : stackFault [0x3C] (fun s => s.raiseStack) (fun t => t.pc == 0 && t.main.a == 0) := by
  decide +kernel

/-- R114, R434: a primary opcode outside IMPLEMENTED_PRIMARY, after a prefix byte. -/
theorem test_unknown_opcode :
    (match step ({ State.reset with cfg.unimplemented := [0x27] }.storeBytes 0 [0xDD, 0x27]) with
      | .fault (.unknownOpcode b a t) => b == 0x27 && a == 1 && t.pc == 2 && t.halted && t.fault == some (.unknownOpcode 0x27 1)
      | _ => false) = true := by
  decide +kernel

/-- R437: a handler that calls `trigger_interrupt()` wakes nothing here but latches; the next step is the acknowledge. -/
theorem test_handler_interrupts : after [0xDB, 0x05]
    (fun s => { s with iff1 := true, cfg.inPorts := [(5, 0)], replies := [⟨7, true, 0⟩] }.setSp 0x9000)
    (fun t => t.main.a == 7 && t.pending && (match step t with | .next u => u.pc == 0x38 && !u.pending | _ => false)) := by
  decide +kernel

/-- R73, D23: a second registration for a port and direction replaces the first; other ports stay. -/
theorem test_last_registration :
    (((State.reset.registerIn 5 1).registerIn 6 2).registerIn 5 3).cfg.inPorts = [(5, 3), (6, 2)] ∧
    ((State.reset.registerOut 5 1).registerOut 5 2).cfg = { Config.initial with outPorts := [(5, 2)] } := by
  decide +kernel

/-- RST-01 and RST-03: reset leaves memory, and execution starts at 0000 with what memory holds (`AND C`). -/
theorem test_rst_03 : after [0xA1] (fun s => { s with regI := 0x55, iff1 := true, fault := some .stackOutOfRange }.cpuReset)
    (fun t => t.main.a == 0 && t.main.f == 0x44 && t.pc == 1 && t.sp == 0xFFFF && t.regI == 0 && !t.iff1) := by
  decide +kernel

/-! ## The assembler: vectors AS of 95_test_vectors.md -/

/-- The image that the text assembles to. -/
def imageOf (source : String) : Option (List Byte) := (assemble source).toOption.map (·.image)

/-- The error and its line. -/
def errorOf (source : String) : Option (Nat × AsmErrorKind) :=
  match assemble source with
  | .ok _ => none
  | .error e => some (e.line, e.kind)

/-- S3, with the label `L` (log entry 11). -/
theorem test_asm_s3 : imageOf "LD B, 3 : LD A, 0 : L: INC A : DJNZ L : OUT (0x17), A : HALT" =
    some [0x06, 0x03, 0x3E, 0x00, 0x3C, 0x10, 0xFD, 0xD3, 0x17, 0x76] := by
  decide +kernel

/-- AS-03: image, labels, line map, listing. -/
theorem test_as_03 : assemble "JR FWD\nNOP\nNOP\nFWD: HALT" =
    .ok {
      image := [0x18, 0x02, 0x00, 0x00, 0x76]
      lineMap := [(1, 0), (2, 2), (3, 3), (4, 4)]
      labels := [("FWD", 4)]
      listing := "0000 | 18 02 | 1 | JR FWD\n0002 | 00 | 2 | NOP\n0003 | 00 | 3 | NOP\n0004 | 76 | 4 | FWD: HALT" } := by
  decide +kernel

/-- AS-02 and AS-04. -/
theorem test_as_02_04 :
    imageOf "ld a, 10 : Add A, 20 : out (0x17), a : halt" = some [0x3E, 0x0A, 0xC6, 0x14, 0xD3, 0x17, 0x76] ∧
    imageOf "PORT: EQU 0x17\nLD A, PORT+1\nOUT (PORT), A" = some [0x3E, 0x18, 0xD3, 0x17] := by
  decide +kernel

/-- AS-05, AS-06, AS-14: DB, DW with a forward reference, a backward ORG. -/
theorem test_as_05_06_14 :
    imageOf "DB 1, -1, 0xFF, 255" = some [0x01, 0xFF, 0xFF, 0xFF] ∧
    imageOf "DW 0x1234, -2, T\nT: NOP" = some [0x34, 0x12, 0xFE, 0xFF, 0x06, 0x00, 0x00] ∧
    imageOf "DB 1, 2, 3, 4\nORG 1\nDB 9" = some [0x01, 0x09, 0x03, 0x04] := by
  decide +kernel

/-- AS-11, AS-12, AS-13: indexed forms, memory forms, accumulator forms. -/
theorem test_as_11_12_13 :
    imageOf "LD (IX-1), 0x5A\nLD A, (IY)\nBIT 7, (IY-1)\nSET 0, (IX+2)" =
      some [0xDD, 0x36, 0xFF, 0x5A, 0xFD, 0x7E, 0x00, 0xFD, 0xCB, 0xFF, 0x7E, 0xDD, 0xCB, 0x02, 0xC6] ∧
    imageOf "LD A, (0x8000)\nLD A, 0x80\nLD HL, (0x8000)\nLD (0x8000), BC" =
      some [0x3A, 0x00, 0x80, 0x3E, 0x80, 0x2A, 0x00, 0x80, 0xED, 0x43, 0x00, 0x80] ∧
    imageOf "SUB B\nSUB A, B\nADD A, (HL)\nCP 0x10\nADD HL, DE\nADC HL, SP" =
      some [0x90, 0x90, 0x86, 0xFE, 0x10, 0x19, 0xED, 0x7A] := by
  decide +kernel

/-- AS-08, AS-10, AS-16 to AS-21, AS-24, AS-27: the error and the line. -/
theorem test_as_errors :
    errorOf "L: DS 127\nJR L" = some (2, .outOfRangeRelative (-129)) ∧
    errorOf "DJNZ F\nDS 128\nF: NOP" = some (1, .outOfRangeRelative 128) ∧
    errorOf "RST 0x28\nRST 5" = some (2, .invalidOperands "RST" ["5"]) ∧
    errorOf "LD A, 256" = some (1, .invalidOperands "LD" ["A", "256"]) ∧
    errorOf "LD A, 0x1G" = some (1, .badNumber "0x1G") ∧ errorOf "JP NOWHERE" = some (1, .undefinedLabel "NOWHERE") ∧
    errorOf "JP NOWHERE\nLD B, (BC)" = some (2, .invalidOperands "LD" ["B", "(BC)"]) ∧
    errorOf "FOO: NOP\nfoo: NOP" = some (2, .duplicateLabel "FOO") ∧
    errorOf "ORG 0xFFFF\nLD A, 1" = some (2, .addressOverflow) ∧
    errorOf "ORG LATER\nLATER: NOP" = some (1, .undefinedLabel "LATER") ∧
    errorOf "LD B, 3 : LD A, 0 :L: INC A : DJNZ L" = some (1, .invalidOperands "LD" ["A", "0 :L: INC A"]) := by
  decide +kernel

/-- R386, R385, R376: the label is entered before the operands are read; ORG and DS see earlier labels only; `L` is a
reserved word outside a label definition, `DJNZ L` and `JR L` (log entry 11); the leftmost error (log entry 12). -/
theorem test_asm_labels :
    errorOf "X: NOP\nX: LD A, 12AB" = some (2, .duplicateLabel "X") ∧
    errorOf "X: NOP\nX: DB" = some (2, .duplicateLabel "X") ∧
    errorOf "X: ORG X+5" = some (1, .undefinedLabel "X") ∧ errorOf "X: DS X" = some (1, .undefinedLabel "X") ∧
    errorOf "L: JP L" = some (1, .invalidOperands "JP" ["L"]) ∧ errorOf "L: DB L" = some (1, .invalidOperands "DB" ["L"]) ∧
    errorOf "L: LD A, (L)" = some (1, .invalidOperands "LD" ["A", "(L)"]) ∧
    errorOf "L: JR L+1" = some (1, .invalidOperands "JR" ["L+1"]) ∧
    errorOf "L: EQU 5" = some (1, .invalidOperands "L" []) ∧ errorOf "HL: NOP" = some (1, .invalidOperands "HL" []) ∧
    errorOf "L: JR NZ, L" = some (1, .invalidOperands "JR" ["NZ", "L"]) ∧ imageOf "L: JR L" = some [0x18, 0xFE] ∧
    errorOf "LD (5)+1, 12AB" = some (1, .invalidOperands "LD" ["(5)+1", "12AB"]) := by
  decide +kernel

/-! ## Witnesses: a concrete state and operands for the hypotheses of every statement that has some -/

/-- An outcome that is a next state meeting a check is a next state. -/
theorem next_of_check {r : Result} {check : State → Bool}
    (h : (match r with | .next t => check t | _ => false) = true) : ∃ t, r = .next t ∧ check t = true := by
  cases r with
  | next t => exact ⟨t, rfl, h⟩
  | fault f => exact absurd h Bool.false_ne_true
  | refused f => exact absurd h Bool.false_ne_true

theorem witness_DecodeOfEncode : (Instr.ldIdxN .ix 0xFF 0x5A).WellFormed ∧ (Instr.pOp .iy (.rst 7)).WellFormed := by decide

theorem witness_EncodeOfDecode : decode [0xDD, 0xFD, 0x21, 0x34, 0x12] = some (.ldXyNn .iy 0x1234, 5) := by decide +kernel

/-- An address outside the two bytes of a word that wraps. -/
theorem witness_MemoryAndAddresses : (1 : Word) ≠ 0xFFFF ∧ (1 : Word) ≠ 0xFFFF + 1 := by decide

theorem witness_LoadStoresInOrder :
    (List.replicate 65536 (1 : Byte)).length ≤ 65536 ∧ 65535 < (List.replicate 65536 (1 : Byte)).length :=
  ⟨Nat.le_of_eq List.length_replicate, Nat.lt_of_lt_of_eq (Nat.lt_succ_self 65535) List.length_replicate.symm⟩

/-- The lowest SP with room to push and the highest with room to pop. -/
theorem witness_PushAndPop : RoomToPush (State.reset.setSp 2) ∧ RoomToPop (State.reset.setSp 0xFFFD) := by decide

theorem witness_StackRoundTrips : RoomToPush (State.reset.setSp 2) := by decide

/-- A flag byte under which the condition holds, and one under which it does not. -/
def flagsFor (holds : Bool) : Cond → Byte
  | .nz | .nc | .po | .p => if holds then 0x00 else 0xFF
  | .z | .c | .pe | .m => if holds then 0xFF else 0x00

/-- At every SP, and with every B, each condition can hold and can fail. -/
theorem condition_both_ways (cc : Cond) (sp : Word) :
    CondTrue ((State.reset.setF (flagsFor true cc)).setSp sp) cc ∧
    ¬CondTrue ((State.reset.setF (flagsFor false cc)).setSp sp) cc := by
  cases cc <;> simp [CondTrue, flagsFor, State.flag, flagOf, State.setF, State.setSp, State.setMain, Flag.bit]

theorem witness_StackFaults (cc : Cond) :
    (∃ s, CondTrue s cc ∧ s.sp = 0) ∧ (∃ s, CondTrue s cc ∧ s.sp = 1) ∧ (∃ s, CondTrue s cc ∧ s.sp = 0xFFFF) ∧
    (∃ s, CondTrue s cc ∧ s.sp = 0xFFFE) ∧ (True ∧ (State.reset.setSp 1).sp = 1) :=
  ⟨⟨_, (condition_both_ways cc 0).1, rfl⟩, ⟨_, (condition_both_ways cc 1).1, rfl⟩, ⟨_, (condition_both_ways cc 0xFFFF).1, rfl⟩,
    ⟨_, (condition_both_ways cc 0xFFFE).1, rfl⟩, trivial, rfl⟩

theorem witness_Exchanges : Reg8.b ≠ .a ∧ Instr.exx ∈ [Instr.exDeHl, .exAfAf, .exx] := by decide

/-- 99 + 99, with every flag set. -/
theorem witness_DaaAddsDecimals : 99 < 100 ∧ ((State.reset.setF 0xFF).setA (bcd 99)).main.a = bcd 99 := by decide +kernel

/-- At the end of memory, so that the program wraps. -/
theorem witness_AddProperty :
    let s := (State.reset.setPc 0xFFFE).storeBytes 0xFFFE [0x3E, 0xFF, 0xC6, 0x01]
    ReachesDecode s ∧ s.cfg.unimplemented = [] ∧ s.bytesFrom 4 s.pc = [0x3E, 0xFF, 0xC6, 0x01] := by
  decide +kernel

/-- The ends of SP's range, and another pair at the value where SP would fault. -/
theorem witness_IncAndDecPair :
    (Rp.sp = .sp → (State.reset.setSp 0xFFFE).sp ≠ 0xFFFF) ∧ (Rp.bc = .sp → (State.reset.setSp 0xFFFF).sp ≠ 0xFFFF) ∧
    (Rp.sp = .sp → (State.reset.setSp 1).sp ≠ 0) ∧ (State.reset.setSp 0xFFFF).sp = 0xFFFF ∧ (State.reset.setSp 0).sp = 0 := by
  decide

theorem witness_ConditionalAndRelativeJumps (cc : Cond) (cj : CondJr) :
    (∃ s, CondTrue s cc) ∧ (∃ s, ¬CondTrue s cc) ∧ (∃ s, CondTrue s (jrCond cj)) ∧ (∃ s, ¬CondTrue s (jrCond cj)) ∧
    State.reset.main.b ≠ 1 ∧ (State.reset.setReg .b 1).main.b = 1 :=
  ⟨⟨_, (condition_both_ways cc 0).1⟩, ⟨_, (condition_both_ways cc 0).2⟩, ⟨_, (condition_both_ways (jrCond cj) 0).1⟩,
    ⟨_, (condition_both_ways (jrCond cj) 0).2⟩, by decide⟩

theorem witness_Calls (cc : Cond) :
    RoomToPush (State.reset.setSp 2) ∧ (∃ s, CondTrue s cc ∧ RoomToPush s ∧ s.sp = 2) ∧ (∃ s, ¬CondTrue s cc ∧ s.sp = 0) :=
  ⟨Nat.le_refl 2, ⟨_, (condition_both_ways cc 2).1, Nat.le_refl 2, rfl⟩, ⟨_, (condition_both_ways cc 0).2, rfl⟩⟩

theorem witness_Returns (cc : Cond) :
    RoomToPop (State.reset.setSp 0xFFFD) ∧ (∃ s, CondTrue s cc ∧ RoomToPop s ∧ s.sp = 0xFFFD) ∧
    (∃ s, ¬CondTrue s cc ∧ s.sp = 0xFFFF) :=
  ⟨Nat.le_refl 0xFFFD, ⟨_, (condition_both_ways cc 0xFFFD).1, Nat.le_refl 0xFFFD, rfl⟩,
    ⟨_, (condition_both_ways cc 0xFFFF).2, rfl⟩⟩

/-- The three cases of a port call: a scripted reply, none left, no handler. -/
theorem witness_PortInputOutput :
    let s : State := { State.reset with cfg.inPorts := [(5, 1)], cfg.outPorts := [(5, 2)], replies := [⟨7, true, 3⟩] }
    s.cfg.inPorts.lookup 5 = some 1 ∧ s.cfg.outPorts.lookup 5 = some 2 ∧ s.replies = ⟨7, true, 3⟩ :: [] ∧
    ({ s with replies := [] } : State).replies = [] ∧ s.cfg.inPorts.lookup 6 = none ∧ s.cfg.outPorts.lookup 6 = none ∧
    s.registerIn 5 4 ∈ [s.registerIn 5 4, s.registerOut 5 4] := by
  decide

theorem witness_BlockInputOutput :
    let s : State := { State.reset with cfg.inPorts := [(5, 1)], cfg.outPorts := [(5, 2)] }
    s.cfg.inPorts.lookup 5 = some 1 ∧ s.cfg.inPorts.lookup 0 = none ∧ s.cfg.outPorts.lookup 5 = some 2 := by
  decide

/-- `LDIR` with BC = 2: one `LDI` is not its end. -/
theorem witness_RepeatingForms :
    ∃ u, 1 ≤ 1 ∧ 1 < 2 ∧ execTimes .ldi 1 (State.reset.setRp .bc 2) = .next u := ⟨_, Nat.le_refl 1, Nat.lt_succ_self 1, rfl⟩

/-- One byte, and 32768 bytes whose destination ends where memory ends. -/
theorem witness_LdirCopies :
    (let s := (State.reset.setRp .bc 1).setRp .de 1
     s.main.bc.toNat = 1 ∧ 1 ≤ 1 ∧
        ∀ j k, j < 1 → k < 1 → s.main.hl + BitVec.ofNat 16 j ≠ s.main.de + BitVec.ofNat 16 k) ∧
    (let s := (State.reset.setRp .bc 0x8000).setRp .de 0x8000
     s.main.bc.toNat = 0x8000 ∧ 1 ≤ 0x8000 ∧
        ∀ j k, j < 0x8000 → k < 0x8000 → s.main.hl + BitVec.ofNat 16 j ≠ s.main.de + BitVec.ofNat 16 k) := by
  refine ⟨⟨rfl, Nat.le_refl 1, fun j k hj hk => ?_⟩, rfl, by decide, fun j k hj hk => ?_⟩
  · show (0 : Word) + BitVec.ofNat 16 j ≠ 1 + BitVec.ofNat 16 k
    bv_omega
  · show (0 : Word) + BitVec.ofNat 16 j ≠ 0x8000 + BitVec.ofNat 16 k
    bv_omega

theorem witness_PrefixWithoutEffect :
    Instr.nop.prefixWithoutEffect = true ∧ Instr.prefixWithoutEffect (.pushRp2 .bc) = true ∧
    RoomToPush (State.reset.setSp 2) ∧ RoomToPop (State.reset.setSp 2) ∧
    RoomToPush (State.reset.setSp 0xFFFD) ∧ RoomToPop (State.reset.setSp 0xFFFD) := by
  decide

/-- A prefixed four-byte instruction that wraps around the end of memory. -/
theorem witness_StepRunsDecoded :
    let s := (State.reset.setPc 0xFFFE).storeBytes 0xFFFE [0xDD, 0xCB, 0xFF, 0x06]
    ReachesDecode s ∧ 4 ≤ 65536 ∧ decode (s.bytesFrom 4 s.pc) = some (.rlcIdx .ix 0xFF, 4) ∧
    ((s.bytesFrom 4 s.pc).find? fun c => c != 0xDD && c != 0xFD) = some 0xCB ∧ 0xCB ∉ s.cfg.unimplemented := by
  decide +kernel

/-- Memory full of one byte. -/
def filled (n : Nat) (v : Byte) : Memory := (List.range' 0 n).map fun k => (k, v)

theorem read_range (v : Byte) (n start a : Nat) (h : start ≤ a) (h' : a < start + n) :
    Memory.read ((List.range' start n).map fun k => (k, v)) a = v := by
  induction n generalizing start with
  | zero => omega
  | succ n ih =>
    rw [List.range'_succ, List.map_cons, Memory.read]
    split
    · rfl
    · exact ih (start + 1) (by omega) (by omega)

/-- No prefix byte before the unknown one, one before it, and nothing but prefix bytes. -/
theorem witness_DecodeFaults :
    (let s : State := { State.reset with cfg.unimplemented := [0x00] }
     ReachesDecode s ∧ 0 < 65536 ∧ s.readByte (s.pc + BitVec.ofNat 16 0) = 0 ∧ ¬IsPrefix 0 ∧ 0 ∈ s.cfg.unimplemented) ∧
    (let s := ({ State.reset with cfg.unimplemented := [0x27] } : State).storeBytes 0 [0xDD, 0x27]
     ReachesDecode s ∧ 1 < 65536 ∧ (∀ j < 1, IsPrefix (s.readByte (s.pc + BitVec.ofNat 16 j))) ∧
        s.readByte (s.pc + BitVec.ofNat 16 1) = 0x27 ∧ ¬IsPrefix 0x27 ∧ 0x27 ∈ s.cfg.unimplemented) ∧
    (let s : State := { State.reset with mem := filled 65536 0xDD }
     ReachesDecode s ∧ ∀ a, IsPrefix (s.readByte a)) := by
  refine ⟨by decide +kernel, by decide +kernel, by decide, fun a => .inl ?_⟩
  exact read_range 0xDD 65536 0 a.toNat (Nat.zero_le _) (by have := a.isLt; omega)

/-- The lowest SP with room, and both where the push faults. -/
theorem witness_InterruptAcknowledge :
    let s : State := { State.reset with pending := true, iff1 := true }
    (s.setSp 2).fault = none ∧ (s.setSp 2).pending = true ∧ (s.setSp 2).iff1 = true ∧ RoomToPush (s.setSp 2) ∧
    (s.setSp 1).fault = none ∧ (s.setSp 1).sp.toNat < 2 ∧ (s.setSp 1).sp = 1 ∧ (s.setSp 0).sp.toNat < 2 := by
  decide

theorem witness_StepEntryOrder :
    State.reset.raiseStack.fault = some .stackOutOfRange ∧
    (let s : State := { State.reset with halted := true, pending := true }
     s.fault = none ∧ s.halted = true ∧ ¬(s.pending = true ∧ s.iff1 = true)) ∧
    (let s : State := { State.reset with halted := true, pending := true, iff1 := true }
     s.fault = none ∧ s.pending = true ∧ s.iff1 = true) ∧
    (∃ t, State.reset.raiseStack.afterCall .reset = some t) ∧ (∃ t, State.reset.raiseStack.afterCall .step = some t) ∧
    (∃ t, State.reset.raiseStack.afterCall .interrupt = some t) :=
  ⟨rfl, by decide, by decide, ⟨_, rfl⟩, ⟨_, rfl⟩, ⟨_, rfl⟩⟩

theorem witness_InterruptRequest : (State.reset.setSp 2).fault = none ∧ RoomToPush (State.reset.setSp 2) := by decide

/-- A running state with a program in memory. -/
def running : State := ({ State.reset with iff1 := true, iff2 := true } : State).storeBytes 0 [0xDD, 0x36, 0xFF, 0x5A]

theorem running_inv : Inv running where
  memory := by decide +kernel
  tag := rfl
  page := rfl
  fault := rfl
  enables := fun _ => rfl
  awake := by decide +kernel

theorem witness_StepKeepsInvariant : Inv running ∧ ∃ t, step running = .next t ∧ (t.pc == 4) = true :=
  ⟨running_inv, next_of_check (check := fun t => t.pc == 4) (by decide +kernel)⟩

theorem witness_StepOutcomes : Inv running := running_inv

theorem witness_OnlyStackFaults : (Instr.pushRp2 .bc).WellFormed ∧ (Instr.pOp .ix .ret).WellFormed ∧ Instr.nop.WellFormed := by
  decide

/-- Each clause's premise by an instruction that meets it, and the result that the statement is about. -/
theorem witness_WhoWritesWhat :
    (∃ t, exec .nop State.reset = .next t) ∧ bareInstr .nop ≠ .ldIA ∧ bareInstr .nop ≠ .ldRA ∧
    bareInstr .nop ∉ [Instr.im0, .im1, .im2] ∧ bareInstr .nop ∉ [Instr.ei, .di, .retn] ∧
    bareInstr .nop ∉ [Instr.ei, .di] ∧ bareInstr .nop ∉ [Instr.exx, .exAfAf] ∧
    (∃ t, exec .halt State.reset = .next t ∧ t.halted = true) ∧ State.reset.interrupt.pending = true ∧
    (∃ t, exec .nop State.reset.interrupt = .next t) :=
  ⟨⟨_, rfl⟩, by decide, by decide, by decide, by decide, by decide, by decide, ⟨_, rfl, rfl⟩, rfl, ⟨_, rfl⟩⟩

theorem witness_UndocumentedFlagsKept :
    (∃ t, exec .scf (State.reset.setF 0x28) = .next t) ∧ writesYX (bareInstr (.pOp .ix .scf)) = false :=
  ⟨⟨_, rfl⟩, rfl⟩

theorem witness_MemoryReset : ∀ b, Machine.Part.sp ≠ .byte b := nofun

theorem witness_AssemblerSelectsDecodable :
    (⟨true, [], 0⟩ : AsmEnv).select "LD" [.indexed .ix true ⟨false, .num 1, none⟩, .immediate ⟨false, .num 90, none⟩] =
      .ok (.ldIdxN .ix 0xFF 0x5A) := by
  decide +kernel

/-- Tolerant with the label unknown, and strict with its value. -/
theorem witness_AssemblerLengthIsFixed :
    (⟨false, [], 0⟩ : AsmEnv).select "JP" [.immediate ⟨false, .ident "T", none⟩] = .ok (.jpNn 0) ∧
    (⟨true, [("T", 0x1234)], 7⟩ : AsmEnv).select "JP" [.immediate ⟨false, .ident "T", none⟩] = .ok (.jpNn 0x1234) := by
  decide +kernel

/-- The four offsets at the two ends of the range, in the three forms, and the label `L`. -/
theorem witness_AssembledRelativeJump :
    let env : AsmEnv := ⟨true, [("L", 874)], 1000⟩
    let target (v : Nat) : AsmOperand := .immediate ⟨false, .num v, none⟩
    env.strict = true ∧ relTargetOf (target 874) = some ⟨false, .num 874, none⟩ ∧
    relTargetOf (.reg8 (.plain .l)) = some ⟨false, .ident "L", none⟩ ∧ env.value ⟨false, .ident "L", none⟩ = .ok 874 ∧
    env.select "JR" [target 874] = .ok (.jr 0x80) ∧ env.select "JR" [.reg8 (.plain .l)] = .ok (.jr 0x80) ∧
    env.select "JR" [.cond (jrCond .nc), target 1129] = .ok (.jrCc .nc 0x7F) ∧ env.select "DJNZ" [target 1129] = .ok (.djnz 0x7F) ∧
    ((-128 : Int) = 874 - ((1000 : Int) + 2)) ∧ ((127 : Int) = 1129 - ((1000 : Int) + 2)) ∧
    ((-129 : Int) = 873 - ((1000 : Int) + 2)) ∧ ((128 : Int) = 1130 - ((1000 : Int) + 2)) := by
  decide +kernel

/-- A last emission of two bytes, and an address in the gap below it. -/
theorem witness_AssemblerImage :
    let st : AsmStatement := ⟨1, [], none, none, []⟩
    let e : AsmEmission := ⟨st, 5, [1, 2]⟩
    1 < e.bytes.length ∧ 4 < highWater 0 [e] ∧ ∀ f ∈ [e], 4 < f.addr ∨ f.addr + f.bytes.length ≤ 4 := by
  decide

end Sys2Proof.Tests
end

/-! ## Frames of changes to the register files -/

namespace Sys2Proof.Machine

theorem flag_mem_allFlags (fl : Flag) : Part.flag fl ∈ allFlags := by cases fl <;> decide

/-- The frame of any change of the two register files (R20, R22): only the parts of the files themselves are left to check. -/
theorem onlyChanges_of_banks {parts : List Part} {s : State} {k k' : Bank}
    (hreg : ∀ r, Part.reg r ∉ parts → k.get r = s.main.get r)
    (hflag : ∀ fl, Part.flag fl ∉ parts → flagOf k.f fl = s.flag fl)
    (hshadow : ∀ r, Part.shadowReg r ∉ parts → k'.get r = s.shadow.get r)
    (hshadowF : Part.shadowF ∉ parts → k'.f = s.shadow.f) :
    OnlyChanges parts s { s with main := k, shadow := k' } := by
  intro p hp
  cases p with
  | reg r => exact hreg r hp
  | flag fl => exact hflag fl hp
  | shadowReg r => exact hshadow r hp
  | shadowF => exact hshadowF hp
  | tags | peripherals => exact ⟨rfl, rfl⟩
  | _ => rfl

/-- The same where the shadow file is left alone. -/
theorem onlyChanges_setMain {parts : List Part} {s : State} {k : Bank}
    (hreg : ∀ r, Part.reg r ∉ parts → k.get r = s.main.get r)
    (hflag : ∀ fl, Part.flag fl ∉ parts → flagOf k.f fl = s.flag fl) : OnlyChanges parts s (s.setMain k) :=
  onlyChanges_of_banks (k' := s.shadow) hreg hflag (fun _ _ => rfl) (fun _ => rfl)

/-! ## Decoding a one-byte instruction, bare and behind an index prefix (R93, R117) -/

theorem decodeFrom_whole {tag : PrefixTag} {page : Page} {b : Byte} {rest : List Byte} {i : Instr} {n : Nat}
    (hu : decodeUnit tag page (b :: rest) = some (i, n)) (hs : i.selects tag = none) :
    decodeFrom tag page (b :: rest) = some (i, n) := by
  simp [decodeFrom, hu, hs]

theorem decodesTo_of_decodeMain {b : Byte} {i : Instr} (hd : ∀ rest, decodeMain b rest = some (i, 1))
    (hs : i.selects .none = none) : DecodesTo [b] i :=
  fun rest => decodeFrom_whole (tag := .none) (page := .main) (hd rest) hs

/-- An index prefix byte costs one byte, and what follows is read on the main page under it. -/
theorem decode_prefix_cons {x : Idx} {b : Byte} {rest : List Byte} {i : Instr} {n : Nat}
    (hd : decodeIndexMain x b rest = some (i, n)) (hs : ∀ tag, i.selects tag = none) :
    decode (x.byte :: b :: rest) = some (i, n + 1) := by
  cases x with
  | ix => exact congrArg (Option.map fun (j, m) => (j, m + 1)) (decodeFrom_whole (tag := .ix) (page := .main) hd (hs _))
  | iy => exact congrArg (Option.map fun (j, m) => (j, m + 1)) (decodeFrom_whole (tag := .iy) (page := .main) hd (hs _))

theorem prefixChangesNothing_of_byte {b : Byte} {i : Instr} (he : encode i = [b])
    (hd : ∀ x rest, decodeIndexMain x b rest = some (.pOp x i, 1)) (hx : ∀ s, execUnaffected i s = exec i s) :
    PrefixChangesNothing i := by
  intro x
  refine ⟨fun rest => ?_, hx⟩
  rw [he]
  exact decode_prefix_cons (hd x rest) fun _ => rfl

/-! ## Instructions that undo themselves -/

theorem execTimes_two_of_involutive {i : Instr} {f : State → State} (he : ∀ s, exec i s = .next (f s))
    (hf : Function.Involutive f) (s : State) : execTimes i 2 s = .next s := by
  simp [execTimes, he, hf s]

/-! ## The three exchanges (R175 to R177) -/

/-- What `EX DE,HL` does, register by register (`exec_exDeHl`). -/
def State.swapDeHl (s : State) : State :=
  s.setMain { s.main with d := s.main.h, e := s.main.l, h := s.main.d, l := s.main.e }

/-- What `EX AF,AF'` does (`exec_exAfAf`). -/
def State.swapAf (s : State) : State :=
  { s with
    main := { s.main with a := s.shadow.a, f := s.shadow.f }
    shadow := { s.shadow with a := s.main.a, f := s.main.f } }

/-- What `EXX` does (`exec_exx`). -/
def State.swapBanks (s : State) : State :=
  { s with
    main := { s.shadow with a := s.main.a, f := s.main.f }
    shadow := { s.main with a := s.shadow.a, f := s.shadow.f } }

theorem exec_exDeHl (s : State) : exec .exDeHl s = .next s.swapDeHl := by
  have hk : (s.main.setDe s.main.hl).setHl s.main.de =
      { s.main with d := s.main.h, e := s.main.l, h := s.main.d, l := s.main.e } := by
    simp [Bank.setDe, Bank.setHl, Bank.hl, Bank.de]
  exact congrArg (fun k => Host.Outcome.next (s.setMain k)) hk

theorem exec_exAfAf (s : State) : exec .exAfAf s = .next s.swapAf := rfl

theorem exec_exx (s : State) : exec .exx s = .next s.swapBanks := rfl

theorem State.swapDeHl_involutive : Function.Involutive State.swapDeHl := fun _ => rfl

theorem State.swapAf_involutive : Function.Involutive State.swapAf := fun _ => rfl

theorem State.swapBanks_involutive : Function.Involutive State.swapBanks := fun _ => rfl

theorem State.swapBanks_reg (s : State) {r : Reg8} (hr : r ≠ .a) :
    s.swapBanks.reg r = s.shadow.get r ∧ s.swapBanks.shadow.get r = s.reg r := by
  cases r with
  | a => exact absurd rfl hr
  | _ => exact ⟨rfl, rfl⟩

theorem State.swapDeHl_onlyChanges (s : State) : OnlyChanges (pairParts .de ++ pairParts .hl) s s.swapDeHl := by
  refine onlyChanges_setMain (fun r hr => ?_) fun _ _ => rfl
  cases r with
  | b | c | a => rfl
  | d | e | h | l => exact absurd (by decide) hr

theorem State.swapAf_onlyChanges (s : State) :
    OnlyChanges (.reg .a :: .shadowReg .a :: .shadowF :: allFlags) s s.swapAf := by
  refine onlyChanges_of_banks (fun r hr => ?_) (fun fl hfl => ?_) (fun r hr => ?_) fun hf => ?_
  · cases r with
    | a => exact absurd (by decide) hr
    | _ => rfl
  · exact absurd (by simp [flag_mem_allFlags]) hfl
  · cases r with
    | a => exact absurd (by decide) hr
    | _ => rfl
  · exact absurd (by decide) hf

theorem State.swapBanks_onlyChanges (s : State) :
    OnlyChanges ([Reg8.b, .c, .d, .e, .h, .l].flatMap fun r => [Part.reg r, Part.shadowReg r]) s s.swapBanks := by
  refine onlyChanges_of_banks (fun r hr => ?_) (fun _ _ => rfl) (fun r hr => ?_) fun _ => rfl
  all_goals
    cases r with
    | a => rfl
    | _ => exact absurd (by decide) hr

/-- Settles O14: each exchange is a swap of registers that is its own inverse; its frame is that of the two register
files, and behind an index prefix its one byte is read as the same instruction. -/
theorem exchanges : Obligations.Exchanges := by
  refine ⟨decodesTo_of_decodeMain (fun _ => rfl) rfl, decodesTo_of_decodeMain (fun _ => rfl) rfl,
    decodesTo_of_decodeMain (fun _ => rfl) rfl, ?prefixExDeHl, ?prefixExx, ?exDeHl, ?exAfAf, ?exx, ?twice⟩
  case prefixExDeHl => exact prefixChangesNothing_of_byte rfl (fun _ _ => rfl) fun _ => rfl
  case prefixExx => exact prefixChangesNothing_of_byte rfl (fun _ _ => rfl) fun _ => rfl
  case exDeHl => exact Does.of_next _ exec_exDeHl (fun _ => ⟨rfl, rfl⟩) State.swapDeHl_onlyChanges
  case exAfAf => exact Does.of_next _ exec_exAfAf (fun _ => ⟨rfl, rfl, rfl, rfl⟩) State.swapAf_onlyChanges
  case exx => exact fun s => ⟨_, exec_exx s, fun _ => s.swapBanks_reg, s.swapBanks_onlyChanges⟩
  case twice =>
    intro i hi
    simp only [List.mem_cons, List.not_mem_nil, or_false] at hi
    obtain rfl | rfl | rfl := hi
    · exact execTimes_two_of_involutive exec_exDeHl State.swapDeHl_involutive
    · exact execTimes_two_of_involutive exec_exAfAf State.swapAf_involutive
    · exact execTimes_two_of_involutive exec_exx State.swapBanks_involutive

end Sys2Proof.Machine

/-! ## Rotates and shifts on numbers (R251 to R257) -/

namespace Sys2Proof.Machine

theorem toNat_lowBit (v : Byte) : (v.getLsbD 0).toNat = v.toNat % 2 := by
  rw [BitVec.getLsbD, Nat.toNat_testBit, pow_zero, Nat.div_one]

theorem toNat_highBit (v : Byte) : (v.getLsbD 7).toNat = v.toNat / 128 := by
  rw [BitVec.getLsbD, Nat.toNat_testBit]
  omega

/-- Bit 7 as `SRA` keeps it in place. -/
theorem and_0x80_eq_bitAt (v : Byte) : v &&& 0x80 = bitAt (v.getLsbD 7) 7 := BitVec.and_twoPow v 7

theorem toNat_shiftLeft_one (v : Byte) : (v <<< 1).toNat = 2 * v.toNat % 256 := by
  rw [BitVec.toNat_shiftLeft, Nat.shiftLeft_eq, Nat.mul_comm]

/-- A shift to the left that takes `c` into bit 0. -/
theorem toNat_shiftLeft_or_bitAt (v : Byte) (c : Bool) :
    ((v <<< 1) ||| bitAt c 0).toNat = 2 * v.toNat % 256 + c.toNat := by
  have hbit : (bitAt c 0).toNat = c.toNat := by cases c <;> rfl
  have heven : 2 * v.toNat % 256 = 2 ^ 1 * (v.toNat % 128) := by omega
  rw [BitVec.toNat_or, toNat_shiftLeft_one, hbit, heven, Nat.two_pow_add_eq_or_of_lt c.toNat_lt]

theorem toNat_ushiftRight_one (v : Byte) : (v >>> 1).toNat = v.toNat / 2 := by
  rw [BitVec.toNat_ushiftRight, Nat.shiftRight_one]

/-- A shift to the right that takes `c` into bit 7. -/
theorem toNat_ushiftRight_or_bitAt (v : Byte) (c : Bool) :
    ((v >>> 1) ||| bitAt c 7).toNat = v.toNat / 2 + 128 * c.toNat := by
  have hbit : (bitAt c 7).toNat = 2 ^ 7 * c.toNat := by cases c <;> rfl
  have hlow : v.toNat / 2 < 2 ^ 7 := by omega
  rw [BitVec.toNat_or, toNat_ushiftRight_one, hbit, Nat.or_comm, ← Nat.two_pow_add_eq_or_of_lt hlow, Nat.add_comm]

theorem toNat_rotate_value (op : RotOp) (cin : Bool) (v : Byte) :
    (rotate op cin v).1.toNat = rotatedValue op v.toNat cin.toNat := by
  cases op with
  | rlc => simp only [rotate, rotatedValue, toNat_shiftLeft_or_bitAt, toNat_highBit]
  | rrc => simp only [rotate, rotatedValue, toNat_ushiftRight_or_bitAt, toNat_lowBit]
  | rl => exact toNat_shiftLeft_or_bitAt v cin
  | rr => exact toNat_ushiftRight_or_bitAt v cin
  | sla => exact toNat_shiftLeft_one v
  | sra => simp only [rotate, rotatedValue, and_0x80_eq_bitAt, toNat_ushiftRight_or_bitAt, toNat_highBit]
  | srl => exact toNat_ushiftRight_one v

theorem toNat_rotate_out (op : RotOp) (cin : Bool) (v : Byte) :
    (rotate op cin v).2.toNat = rotatedOut op v.toNat := by
  cases op with
  | rlc | rl | sla => exact toNat_highBit v
  | rrc | rr | sra | srl => exact toNat_lowBit v

theorem rotate_out_iff (op : RotOp) (cin : Bool) (v : Byte) :
    (rotate op cin v).2 = true ↔ rotatedOut op v.toNat = 1 := by
  rw [← toNat_rotate_out op cin, Bool.toNat_eq_one]

/-! ## The rotates of A (R245 to R248) -/

/-- The frame of a write of A and F: only the flags are left to check. -/
theorem onlyChanges_setAF {parts : List Part} {s : State} {a f : Byte} (ha : Part.reg .a ∈ parts)
    (hflag : ∀ fl, Part.flag fl ∉ parts → flagOf f fl = s.flag fl) : OnlyChanges parts s (s.setAF a f) := by
  refine onlyChanges_setMain (fun r hr => ?_) hflag
  cases r with
  | a => exact absurd ha hr
  | _ => rfl

theorem State.rotA_a (s : State) (op : RotOp) : (s.rotA op).main.a = (rotate op (s.flag .c) s.main.a).1 := rfl

/-- The flags after a rotate of A. -/
theorem State.rotA_flag (s : State) (op : RotOp) (fl : Flag) :
    (s.rotA op).flag fl =
      match fl with
      | .c => (rotate op (s.flag .c) s.main.a).2
      | .h | .n => false
      | fl => s.flag fl := by
  refine (flagOf_keepYX ..).trans ?_
  cases fl <;> rfl

theorem State.rotA_onlyChanges (s : State) (op : RotOp) :
    OnlyChanges [.reg .a, .flag .c, .flag .h, .flag .n] s (s.rotA op) := by
  refine onlyChanges_setAF (by decide) fun fl hfl => (s.rotA_flag op fl).trans ?_
  cases fl with
  | c | h | n => exact absurd (by decide) hfl
  | s | z | y | x | pv => rfl

/-- An instruction that is a rotate of A meets its statement. -/
theorem rotatesA_of_exec {op : RotOp} {i : Instr} (he : ∀ s, exec i s = .next (s.rotA op)) : RotatesA op i := by
  refine Does.of_next (State.rotA · op) he (fun s => ⟨?value, ?carry, ?clear⟩) (State.rotA_onlyChanges · op)
  case value => exact toNat_rotate_value op (s.flag .c) s.main.a
  case carry =>
    rw [s.rotA_flag op .c]
    exact rotate_out_iff op (s.flag .c) s.main.a
  case clear => exact ⟨s.rotA_flag op .h, s.rotA_flag op .n⟩

/-- Settles O26: each of the four instructions is the rotate of A by its operation, whose value and carry are those of
`rotate` on numbers; `RLCA` is read and run alike behind an index prefix. -/
theorem rotateA : Obligations.RotateA := by
  refine ⟨decodesTo_of_decodeMain (fun _ => rfl) rfl, decodesTo_of_decodeMain (fun _ => rfl) rfl,
    decodesTo_of_decodeMain (fun _ => rfl) rfl, decodesTo_of_decodeMain (fun _ => rfl) rfl, ?rlca, ?rrca, ?rla, ?rra,
    ?prefixRlca⟩
  case rlca => exact rotatesA_of_exec fun _ => rfl
  case rrca => exact rotatesA_of_exec fun _ => rfl
  case rla => exact rotatesA_of_exec fun _ => rfl
  case rra => exact rotatesA_of_exec fun _ => rfl
  case prefixRlca => exact prefixChangesNothing_of_byte rfl (fun _ _ => rfl) fun _ => rfl

end Sys2Proof.Machine

/-! ## Absolute jumps (R281, R283) -/

namespace Sys2Proof.Machine

/-- The frame of a write of PC: nothing but PC changes. -/
theorem State.setPc_onlyChanges (s : State) (v : Word) : OnlyChanges [.pc] s (s.setPc v) := by
  intro p hp
  cases p with
  | pc => exact absurd (by decide) hp
  | tags | peripherals => exact ⟨rfl, rfl⟩
  | _ => rfl

/-- An instruction that only writes PC, with a target read off the state. -/
theorem does_of_exec_setPc {i : Instr} (target : State → Word) (he : ∀ s, exec i s = .next (s.setPc (target s))) :
    Does i (fun _ => [.pc]) fun s t => t.pc = target s :=
  Does.of_next _ he (fun s => s.setPc_pc (target s)) fun s => s.setPc_onlyChanges (target s)

/-- An unprefixed opcode that takes the two bytes after it as a word, low byte first. -/
theorem decodesTo_word_of_decodeMain {b : Byte} {f : Word → Instr} (hd : ∀ rest, decodeMain b rest = withWord rest f)
    (hs : ∀ nn, (f nn).selects .none = none) (l h : Byte) : DecodesTo [b, l, h] (f (pair h l)) :=
  fun rest => decodeFrom_whole (tag := .none) (page := .main) (hd (l :: h :: rest)) (hs _)

/-- One byte behind an index prefix. -/
theorem decodesTo_of_decodeIndexMain {x : Idx} {b : Byte} {i : Instr}
    (hd : ∀ rest, decodeIndexMain x b rest = some (i, 1)) (hs : ∀ tag, i.selects tag = none) : DecodesTo [x.byte, b] i :=
  fun rest => decode_prefix_cons (hd rest) hs

/-- Settles O31: the words are read on their pages, with nothing taken after `E9`, and each of the jumps is one write of
PC. -/
theorem absoluteJumps : Obligations.AbsoluteJumps := by
  refine ⟨?wordNn, ?wordHl, ?wordIx, ?wordIy, ?jpNn, ?jpHl, ?jpXy⟩
  case wordNn => exact decodesTo_word_of_decodeMain (fun _ => rfl) fun _ => rfl
  case wordHl => exact decodesTo_of_decodeMain (fun _ => rfl) rfl
  case wordIx => exact decodesTo_of_decodeIndexMain (x := .ix) (fun _ => rfl) fun _ => rfl
  case wordIy => exact decodesTo_of_decodeIndexMain (x := .iy) (fun _ => rfl) fun _ => rfl
  case jpNn => exact fun nn => does_of_exec_setPc (fun _ => nn) fun _ => rfl
  case jpHl => exact does_of_exec_setPc (fun s => s.main.hl) fun _ => rfl
  case jpXy => exact fun x => does_of_exec_setPc (fun s => s.xy x) fun _ => rfl

end Sys2Proof.Machine

/-! ## The interrupt flip-flops (R351) -/

namespace Sys2Proof.Machine

/-- Both interrupt flip-flops at `v`. -/
def State.setIffs (s : State) (v : Bool) : State := { s with iff1 := v, iff2 := v }

@[simp] theorem State.setIffs_iff1 (s : State) (v : Bool) : (s.setIffs v).iff1 = v := rfl

@[simp] theorem State.setIffs_iff2 (s : State) (v : Bool) : (s.setIffs v).iff2 = v := rfl

/-- The frame of a write of the two flip-flops: the latch is among the parts it keeps. -/
theorem State.setIffs_onlyChanges (s : State) (v : Bool) : OnlyChanges [.iff1, .iff2] s (s.setIffs v) := by
  intro p hp
  cases p with
  | iff1 | iff2 => exact absurd (by decide) hp
  | tags | peripherals => exact ⟨rfl, rfl⟩
  | _ => rfl

theorem exec_di (s : State) : exec .di s = .next (s.setIffs false) := rfl

/-- Settles O41: `F3` is read on the main page, and `DI` is one write of the two flip-flops. -/
theorem disableInterrupts : Obligations.DisableInterrupts := by
  refine ⟨?encoding, ?effect⟩
  case encoding => exact decodesTo_of_decodeMain (fun _ => rfl) rfl
  case effect =>
    exact Does.of_next _ exec_di (fun s => ⟨s.setIffs_iff1 false, s.setIffs_iff2 false⟩) fun s =>
      s.setIffs_onlyChanges false

end Sys2Proof.Machine

/-! ## Decoding what was encoded (R90 to R112) -/

namespace Sys2Proof.Machine

/-- A prefix byte costs one byte, and reading goes on with what it selects (R93). -/
theorem decodeFrom_selecting {tag tag' : PrefixTag} {page page' : Page} {b : Byte} {rest : List Byte} {p i : Instr}
    {n m : Nat} (hu : decodeUnit tag page (b :: rest) = some (p, n)) (hs : p.selects tag = some (tag', page'))
    (hd : decodeFrom tag' page' rest = some (i, m)) : decodeFrom tag page (b :: rest) = some (i, m + 1) := by
  simp only [decodeFrom, hu, hs, hd, Option.map_some]

/-- A sub-opcode behind 0xED. -/
theorem decode_ed_cons {s : Byte} {rest : List Byte} {i : Instr} {n : Nat} (hd : decodeEd s rest = some (i, n))
    (hs : ∀ tag, i.selects tag = none) : decode (0xED :: s :: rest) = some (i, n + 1) :=
  decodeFrom_selecting rfl rfl (decodeFrom_whole (tag := .none) (page := .ed) hd (hs _))

/-- A displacement and a sub-opcode behind an index prefix and 0xCB. -/
theorem decode_indexCb_cons {x : Idx} {d s : Byte} {rest : List Byte} {i : Instr} (hd : decodeIndexCb x d s = i)
    (hs : ∀ tag, i.selects tag = none) : decode (x.byte :: 0xCB :: d :: s :: rest) = some (i, 4) := by
  subst hd
  cases x <;> exact decodeFrom_selecting rfl rfl (decodeFrom_selecting rfl rfl (decodeFrom_whole rfl (hs _)))

/-- Only the word loads of the ED page (R112, z = 3) look at the bytes after the sub-opcode. -/
theorem decodeEd_no_operand {s : Byte} (hs : ¬(fieldX s = 1 ∧ fieldZ s = 3)) (rest : List Byte) :
    decodeEd s rest = decodeEd s [] := by
  unfold decodeEd
  split
  case h_1 hx =>
    unfold decodeEd1
    split
    case h_4 hz => exact absurd ⟨hx, hz⟩ hs
    all_goals rfl
  all_goals rfl

/-- R113: a sub-opcode outside R112's table is unknown, whatever follows it. -/
theorem decodeEd_of_not_defined {s : Byte} (hs : definedEd.contains s.toNat = false) (rest : List Byte) :
    decodeEd s rest = some (.unknownEd s, 1) := by
  have hno : ∀ s : Byte, definedEd.contains s.toNat = false → ¬(fieldX s = 1 ∧ fieldZ s = 3) := by decide +kernel
  have hall : ∀ s : Byte, definedEd.contains s.toNat = false → decodeEd s [] = some (.unknownEd s, 1) := by
    decide +kernel
  rw [decodeEd_no_operand (hno s hs), hall s hs]

theorem decodeIndexCb_of_register_column {s : Byte} (hs : s.toNat % 8 ≠ 6) (x : Idx) (d : Byte) :
    decodeIndexCb x d s = .unknownIndexCb x d s := by
  unfold decodeIndexCb
  split
  case h_5 => rfl
  all_goals exact absurd ‹fieldZ s = 6› hs

/-- R96 item 2: `LD r,r'` with an index half among its registers. -/
theorem decodeIndexMain_half {r r' : RegX} (h : (r.isHalf || r'.isHalf) = true) (x : Idx) (rest : List Byte) :
    decodeIndexMain x (op (0x40 + 8 * r.code + r'.code)) rest = some (.ldRRHalf x r r', 1) := by
  have hd : decodeIndexMain x (op (0x40 + 8 * r.code + r'.code)) rest =
      if r.isHalf || r'.isHalf then some (.ldRRHalf x r r', 1)
      else decodeUnaffected x (op (0x40 + 8 * r.code + r'.code)) rest := by
    cases r <;> cases r' <;> rfl
  rw [hd, if_pos h]

/-- R117: an instruction that an index prefix leaves alone is read behind one as `P op`. -/
theorem decode_encode_pOp (x : Idx) (i : Instr) (rest : List Byte) (h : i.prefixWithoutEffect = true) :
    decode (encode (.pOp x i) ++ rest) = some (.pOp x i, (encode (.pOp x i)).length) := by
  cases i with
  | nop | exAfAf | ldIndBcA | ldIndDeA | ldAIndBc | ldAIndDe | rlca | rrca | rla | rra | daa | cpl | scf | ccf | halt | ret
  | exx | exDeHl | di | ei | djnz | jr | addAN | adcAN | subN | sbcAN | andN | xorN | orN | cpN | outNA | inAN =>
    cases x <;> rfl
  | incR r | decR r | ldRN r | addAR r | adcAR r | subR r | sbcAR r | andR r | xorR r | orR r | cpR r =>
    cases r with
    | h | l => cases h
    | _ => cases x <;> rfl
  | ldRR r r' =>
    cases r with
    | h | l => cases h
    | _ =>
      cases r' with
      | h | l => cases h
      | _ => cases x <;> rfl
  | incRp rp | decRp rp =>
    cases rp with
    | hl => cases h
    | _ => cases x <;> rfl
  | popRp2 rp2 | pushRp2 rp2 =>
    cases rp2 with
    | hl => cases h
    | _ => cases x <;> rfl
  | jrCc cc | retCc cc => cases x <;> cases cc <;> rfl
  | rst t => fin_cases t <;> cases x <;> rfl
  | ldRpNn rp nn =>
    cases rp with
    | hl => cases h
    | _ => cases x <;> exact congrArg (fun v => some (Instr.pOp _ (.ldRpNn _ v), 4)) (pair_hi_lo nn)
  | ldMemA nn => cases x <;> exact congrArg (fun v => some (Instr.pOp _ (.ldMemA v), 4)) (pair_hi_lo nn)
  | ldAMem nn => cases x <;> exact congrArg (fun v => some (Instr.pOp _ (.ldAMem v), 4)) (pair_hi_lo nn)
  | jpNn nn => cases x <;> exact congrArg (fun v => some (Instr.pOp _ (.jpNn v), 4)) (pair_hi_lo nn)
  | callNn nn => cases x <;> exact congrArg (fun v => some (Instr.pOp _ (.callNn v), 4)) (pair_hi_lo nn)
  | jpCcNn cc nn =>
    cases x <;> cases cc <;> exact congrArg (fun v => some (Instr.pOp _ (.jpCcNn _ v), 4)) (pair_hi_lo nn)
  | callCcNn cc nn =>
    cases x <;> cases cc <;> exact congrArg (fun v => some (Instr.pOp _ (.callCcNn _ v), 4)) (pair_hi_lo nn)
  | _ => cases h

/-- Settles O1: each encoding is read back on its page, constructor by constructor; the operand fields are run through
and the operand bytes stay arbitrary. -/
theorem decodeOfEncode : Obligations.DecodeOfEncode := by
  intro i rest h
  cases i with
  | pOp x i => exact decode_encode_pOp x i rest h
  | prefixCB | prefixDD | prefixED | prefixFD => cases h
  | nop | exAfAf | ldIndBcA | ldIndDeA | ldAIndBc | ldAIndDe | incIndHl | decIndHl | ldIndHlN | rlca | rrca | rla | rra
  | daa | cpl | scf | ccf | halt | addAIndHl | adcAIndHl | subIndHl | sbcAIndHl | andIndHl | xorIndHl | orIndHl | cpIndHl
  | addAN | adcAN | subN | sbcAN | andN | xorN | orN | cpN | ret | exx | jpHl | ldSpHl | outNA | inAN | exIndSpHl | exDeHl
  | di | ei | djnz | jr | neg | retn | reti | im0 | im1 | im2 | ldIA | ldRA | ldAI | ldAR | rrd | rld | ldi | cpi | ini
  | outi | ldd | cpd | ind | outd | ldir | cpir | inir | otir | lddr | cpdr | indr | otdr
  | rlcIndHl | rrcIndHl | rlIndHl | rrIndHl | slaIndHl | sraIndHl | srlIndHl => rfl
  | incR r | decR r | ldRN r | ldRIndHl r | ldIndHlR r | addAR r | adcAR r | subR r | sbcAR r | andR r | xorR r | orR r
  | cpR r | rlcR r | rrcR r | rlR r | rrR r | slaR r | sraR r | srlR r | inRC r | outCR r => cases r <;> rfl
  | ldRR r r' => cases r <;> cases r' <;> rfl
  | addHlRp rp | incRp rp | decRp rp | adcHlRp rp | sbcHlRp rp => cases rp <;> rfl
  | popRp2 rp2 | pushRp2 rp2 => cases rp2 <;> rfl
  | jrCc cc | retCc cc => cases cc <;> rfl
  | rst t => fin_cases t <;> rfl
  | ldMemHl nn => exact congrArg (fun v => some (Instr.ldMemHl v, 3)) (pair_hi_lo nn)
  | ldHlMem nn => exact congrArg (fun v => some (Instr.ldHlMem v, 3)) (pair_hi_lo nn)
  | ldMemA nn => exact congrArg (fun v => some (Instr.ldMemA v, 3)) (pair_hi_lo nn)
  | ldAMem nn => exact congrArg (fun v => some (Instr.ldAMem v, 3)) (pair_hi_lo nn)
  | jpNn nn => exact congrArg (fun v => some (Instr.jpNn v, 3)) (pair_hi_lo nn)
  | callNn nn => exact congrArg (fun v => some (Instr.callNn v, 3)) (pair_hi_lo nn)
  | ldRpNn rp nn => cases rp <;> exact congrArg (fun v => some (Instr.ldRpNn _ v, 3)) (pair_hi_lo nn)
  | jpCcNn cc nn => cases cc <;> exact congrArg (fun v => some (Instr.jpCcNn _ v, 3)) (pair_hi_lo nn)
  | callCcNn cc nn => cases cc <;> exact congrArg (fun v => some (Instr.callCcNn _ v, 3)) (pair_hi_lo nn)
  | ldMemRp nn rp => cases rp <;> exact congrArg (fun v => some (Instr.ldMemRp v _, 4)) (pair_hi_lo nn)
  | ldRpMem rp nn => cases rp <;> exact congrArg (fun v => some (Instr.ldRpMem _ v, 4)) (pair_hi_lo nn)
  | ldXyNn x nn => cases x <;> exact congrArg (fun v => some (Instr.ldXyNn _ v, 4)) (pair_hi_lo nn)
  | ldMemXy x nn => cases x <;> exact congrArg (fun v => some (Instr.ldMemXy _ v, 4)) (pair_hi_lo nn)
  | ldXyMem x nn => cases x <;> exact congrArg (fun v => some (Instr.ldXyMem _ v, 4)) (pair_hi_lo nn)
  | incXy x | decXy x | pushXy x | popXy x | exIndSpXy x | jpXy x | ldSpXy x | incIdx x | decIdx x | ldIdxN x | addAIdx x
  | adcAIdx x | subIdx x | sbcAIdx x | andIdx x | xorIdx x | orIdx x | cpIdx x => cases x <;> rfl
  | addXyRp x rp => cases x <;> cases rp <;> rfl
  | ldRIdx r x | ldIdxR x _ r => cases x <;> cases r <;> rfl
  | addAHalf x hf | adcAHalf x hf | subHalf x hf | sbcAHalf x hf | andHalf x hf | xorHalf x hf | orHalf x hf | cpHalf x hf
  | incHalf x hf | decHalf x hf | ldHalfN x hf => cases x <;> cases hf <;> rfl
  | ldRRHalf x r r' => exact decode_prefix_cons (decodeIndexMain_half h x rest) fun _ => rfl
  | rlcIdx x | rrcIdx x | rlIdx x | rrIdx x | slaIdx x | sraIdx x | srlIdx x | unknownIndexCb36 x =>
    exact decode_indexCb_cons rfl fun _ => rfl
  | unknownCb z => fin_cases z <;> rfl
  | bitR b r | resR b r | setR b r => fin_cases b <;> cases r <;> rfl
  | bitIndHl b | resIndHl b | setIndHl b => fin_cases b <;> rfl
  | bitIdx b x | resIdx b x | setIdx b x =>
    refine decode_indexCb_cons ?_ fun _ => rfl
    fin_cases b <;> rfl
  | unknownIndexCb x d s =>
    have hs : s.toNat % 8 ≠ 6 := by simpa [Instr.WellFormed, Instr.wellFormed] using h
    exact decode_indexCb_cons (decodeIndexCb_of_register_column hs x d) fun _ => rfl
  | unknownEd s =>
    have hs : definedEd.contains s.toNat = false := by simpa [Instr.WellFormed, Instr.wellFormed] using h
    exact decode_ed_cons (decodeEd_of_not_defined hs rest) fun _ => rfl

end Sys2Proof.Machine

/-! ## Encoding what was decoded (R93 to R95, R100 to R112) -/

namespace Sys2Proof.Machine

/-! ### Fields and their codes -/

theorem toNat_eq_fields (b : Byte) : b.toNat = 64 * fieldX b + 8 * fieldY b + fieldZ b := by
  simp only [fieldX, fieldY, fieldZ]
  omega

theorem fieldX_lt (b : Byte) : fieldX b < 4 := by
  have := b.isLt
  simp only [fieldX]
  omega

theorem fieldY_lt (b : Byte) : fieldY b < 8 := Nat.mod_lt _ (by decide)

theorem fieldZ_lt (b : Byte) : fieldZ b < 8 := Nat.mod_lt _ (by decide)

theorem fieldP_lt (b : Byte) : fieldP b < 4 := Nat.mod_lt _ (by decide)

theorem fieldY_eq (b : Byte) : fieldY b = 2 * fieldP b + fieldQ b ∧ fieldQ b < 2 := by
  simp only [fieldY, fieldP, fieldQ]
  omega

theorem op_eq {n : Nat} {b : Byte} (h : n = b.toNat) : op n = b := by
  rw [h, op, BitVec.ofNat_toNat, BitVec.setWidth_eq]

theorem regOf_eq_some {n : Nat} {r : Reg8} (h : regOf n = some r) : n = r.code := by
  unfold regOf at h
  split at h <;> cases h <;> rfl

theorem regOf_eq_none {n : Nat} (h : regOf n = none) (hn : n < 8) : n = 6 := by
  have hall : ∀ m < 8, regOf m = none → m = 6 := by decide
  exact hall n hn h

theorem regXOf_eq_some {n : Nat} {r : RegX} (h : regXOf n = some r) : n = r.code := by
  unfold regXOf at h
  split at h <;> cases h <;> rfl

theorem halfOf_eq_some {n : Nat} {hf : Half} (h : halfOf n = some hf) : n = hf.code := by
  unfold halfOf at h
  split at h <;> cases h <;> rfl

@[simp] theorem rpOf_code (b : Byte) : (rpOf (fieldP b)).code = fieldP b := by
  have h := fieldP_lt b
  interval_cases fieldP b <;> rfl

@[simp] theorem rp2Of_code (b : Byte) : (rp2Of (fieldP b)).code = fieldP b := by
  have h := fieldP_lt b
  interval_cases fieldP b <;> rfl

@[simp] theorem rpXOf_code (b : Byte) : (rpXOf (fieldP b)).code = fieldP b := by
  have h := fieldP_lt b
  interval_cases fieldP b <;> rfl

@[simp] theorem condOf_code (b : Byte) : (condOf (fieldY b)).code = fieldY b := by
  have h := fieldY_lt b
  interval_cases fieldY b <;> rfl

theorem condJrOf_code {n : Nat} (h : n < 4) : (condJrOf n).code = n := by
  interval_cases n <;> rfl

theorem fin8_val {n : Nat} (h : n < 8) : (fin8 n).val = n := Nat.mod_eq_of_lt h

theorem encode_aluR {y : Nat} (h : y < 8) (r : Reg8) : encode (aluR y r) = [op (0x80 + 8 * y + r.code)] := by
  interval_cases y <;> rfl

theorem wellFormed_aluR (y : Nat) (r : Reg8) : (aluR y r).WellFormed := by
  unfold aluR
  split <;> rfl

theorem wellFormed_aluIndHl (y : Nat) : (aluIndHl y).WellFormed := by
  unfold aluIndHl
  split <;> rfl

theorem wellFormed_aluN (y : Nat) (n : Byte) : (aluN y n).WellFormed := by
  unfold aluN
  split <;> rfl

theorem encode_aluIndHl {y : Nat} (h : y < 8) : encode (aluIndHl y) = [op (0x86 + 8 * y)] := by
  interval_cases y <;> rfl

theorem encode_aluN {y : Nat} (h : y < 8) (n : Byte) : encode (aluN y n) = [op (0xC6 + 8 * y), n] := by
  interval_cases y <;> rfl

/-! ### A decoder gives back the encoding of what it read -/

/-- What `d` answers is encoded as the bytes it took from `bytes`, behind `lead` where it is a whole instruction, which
then is well formed. -/
def ReadBack (lead bytes : List Byte) (d : Decoded) : Prop :=
  ∀ i n, d = some (i, n) → n ≤ bytes.length ∧
    if i.isPrefixByte then encode i = bytes.take n else i.WellFormed ∧ encode i = lead ++ bytes.take n

theorem isPrefixByte_of_wellFormed {i : Instr} (h : i.WellFormed) : i.isPrefixByte = false := by
  cases i with
  | prefixCB | prefixDD | prefixED | prefixFD => cases h
  | _ => rfl

variable {lead rest : List Byte} {b : Byte}

theorem readBack_bare {i : Instr} {c : Nat} (he : encode i = lead ++ [op c]) (hc : c = b.toNat)
    (hw : i.WellFormed := by rfl) : ReadBack lead (b :: rest) (some (i, 1)) := by
  rintro _ _ ⟨⟩
  rw [op_eq hc] at he
  simpa [isPrefixByte_of_wellFormed hw] using ⟨hw, he⟩

theorem readBack_byte {f : Byte → Instr} {c : Nat} (he : ∀ n, encode (f n) = lead ++ [op c, n]) (hc : c = b.toNat)
    (hw : ∀ n, (f n).WellFormed := by intro _; rfl) : ReadBack lead (b :: rest) (withByte rest f) := by
  cases rest with
  | nil => exact nofun
  | cons n rest =>
    rintro _ _ ⟨⟩
    rw [op_eq hc] at he
    simpa [isPrefixByte_of_wellFormed (hw n)] using ⟨hw n, he n⟩

theorem readBack_word {f : Word → Instr} {c : Nat} (he : ∀ nn, encode (f nn) = lead ++ [op c, lo nn, hi nn])
    (hc : c = b.toNat) (hw : ∀ nn, (f nn).WellFormed := by intro _; rfl) :
    ReadBack lead (b :: rest) (withWord rest f) := by
  match rest with
  | [] | [_] => exact nofun
  | l :: h :: rest =>
    rintro _ _ ⟨⟩
    have he' := he (pair h l)
    rw [op_eq hc, lo_pair, hi_pair] at he'
    simpa [isPrefixByte_of_wellFormed (hw _)] using ⟨hw (pair h l), he'⟩

/-- The row of a prefix byte. -/
theorem readBack_prefixByte {i : Instr} {c : Nat} (he : encode i = [op c]) (hc : c = b.toNat)
    (hp : i.isPrefixByte = true) : ReadBack lead (b :: rest) (some (i, 1)) := by
  rintro _ _ ⟨⟩
  simpa [hp, op_eq hc] using he

/-! ### The main page (R108 to R110) -/

theorem decodeMain0_readBack (hx : fieldX b = 0) : ReadBack [] (b :: rest) (decodeMain0 b rest) := by
  have hb := toNat_eq_fields b
  have hy := fieldY_lt b
  have hz := fieldZ_lt b
  have hq := fieldY_eq b
  unfold decodeMain0
  split
  case h_1 =>
    split
    case h_1 | h_2 => exact readBack_bare rfl (by omega)
    case h_3 | h_4 => exact readBack_byte (fun _ => rfl) (by omega)
    case h_5 => exact readBack_byte (fun _ => rfl) (by
      simp only [imp_false] at *
      rw [condJrOf_code] <;> omega)
  case h_2 =>
    split
    case h_1 => exact readBack_word (fun _ => rfl) (by rw [rpOf_code]; omega)
    case h_2 => exact readBack_bare rfl (by simp only [imp_false] at *; rw [rpOf_code]; omega)
  case h_3 =>
    split
    case h_1 | h_2 | h_3 | h_4 => exact readBack_bare rfl (by omega)
    case h_5 | h_6 | h_7 => exact readBack_word (fun _ => rfl) (by omega)
    case h_8 => exact readBack_word (fun _ => rfl) (by simp only [imp_false] at *; omega)
  case h_4 =>
    split
    case h_1 => exact readBack_bare rfl (by rw [rpOf_code]; omega)
    case h_2 => exact readBack_bare rfl (by simp only [imp_false] at *; rw [rpOf_code]; omega)
  case h_5 | h_6 =>
    split
    case h_1 hr => exact readBack_bare rfl (by rw [← regOf_eq_some hr]; omega)
    case h_2 hr => exact readBack_bare rfl (by rw [hb, regOf_eq_none hr hy]; omega)
  case h_7 =>
    split
    case h_1 hr => exact readBack_byte (fun _ => rfl) (by rw [← regOf_eq_some hr]; omega)
    case h_2 hr => exact readBack_byte (fun _ => rfl) (by rw [hb, regOf_eq_none hr hy]; omega)
  case h_8 =>
    simp only [imp_false] at *
    split
    case h_8 => exact readBack_bare rfl (by simp only [imp_false] at *; omega)
    all_goals exact readBack_bare rfl (by omega)

theorem decodeMain1_readBack (hx : fieldX b = 1) : ReadBack [] (b :: rest) (decodeMain1 b) := by
  have hb := toNat_eq_fields b
  have hy := fieldY_lt b
  have hz := fieldZ_lt b
  unfold decodeMain1
  split
  case h_1 hr hr' => exact readBack_bare rfl (by rw [← regOf_eq_some hr, ← regOf_eq_some hr']; omega)
  case h_2 hr hr' => exact readBack_bare rfl (by rw [← regOf_eq_some hr, hb, regOf_eq_none hr' hz]; omega)
  case h_3 hr hr' => exact readBack_bare rfl (by rw [← regOf_eq_some hr', hb, regOf_eq_none hr hy]; omega)
  case h_4 hr hr' => exact readBack_bare rfl (by rw [hb, regOf_eq_none hr hy, regOf_eq_none hr' hz]; omega)

theorem decodeMain2_readBack (hx : fieldX b = 2) : ReadBack [] (b :: rest) (decodeMain2 b) := by
  have hb := toNat_eq_fields b
  have hy := fieldY_lt b
  have hz := fieldZ_lt b
  unfold decodeMain2
  split
  case h_1 hr => exact readBack_bare (encode_aluR hy _) (by rw [← regOf_eq_some hr]; omega) (wellFormed_aluR _ _)
  case h_2 hr => exact readBack_bare (encode_aluIndHl hy) (by rw [hb, regOf_eq_none hr hz]; omega) (wellFormed_aluIndHl _)

theorem decodeMain3_readBack (hx : fieldX b = 3) : ReadBack [] (b :: rest) (decodeMain3 b rest) := by
  have hb := toNat_eq_fields b
  have hy := fieldY_lt b
  have hz := fieldZ_lt b
  have hq := fieldY_eq b
  unfold decodeMain3
  split
  case h_1 => exact readBack_bare rfl (by rw [condOf_code]; omega)
  case h_2 =>
    split
    case h_5 => exact readBack_bare rfl (by simp only [imp_false] at *; rw [rp2Of_code]; omega)
    all_goals exact readBack_bare rfl (by omega)
  case h_3 | h_5 => exact readBack_word (fun _ => rfl) (by rw [condOf_code]; omega)
  case h_4 =>
    split
    case h_1 => exact readBack_word (fun _ => rfl) (by omega)
    case h_2 => exact readBack_prefixByte rfl (by omega) rfl
    case h_3 | h_4 => exact readBack_byte (fun _ => rfl) (by omega)
    case h_8 => exact readBack_bare rfl (by simp only [imp_false] at *; omega)
    all_goals exact readBack_bare rfl (by omega)
  case h_6 =>
    split
    case h_1 => exact readBack_word (fun _ => rfl) (by omega)
    case h_5 => exact readBack_bare rfl (by simp only [imp_false] at *; rw [rp2Of_code]; omega)
    case h_2 | h_3 | h_4 => exact readBack_prefixByte rfl (by omega) rfl
  case h_7 => exact readBack_byte (encode_aluN hy) (by omega) (wellFormed_aluN _)
  case h_8 => exact readBack_bare rfl (by simp only [imp_false] at *; rw [fin8_val hy]; omega)

theorem decodeMain_readBack : ReadBack [] (b :: rest) (decodeMain b rest) := by
  have hlt := fieldX_lt b
  unfold decodeMain
  split
  case h_1 hx => exact decodeMain0_readBack hx
  case h_2 hx => exact decodeMain1_readBack hx
  case h_3 hx => exact decodeMain2_readBack hx
  case h_4 => exact decodeMain3_readBack (by simp only [imp_false] at *; omega)

/-! ### Which main-page bytes an index prefix leaves alone (R117) -/

/-- The row is a prefix byte or an instruction that an index prefix leaves alone. -/
def unaffectedByIndex (i : Instr) : Bool := i.isPrefixByte || i.prefixWithoutEffect

/-- Alike in being a prefix byte, and in being left alone by an index prefix. -/
def SameKind (i j : Instr) : Prop :=
  i.isPrefixByte = j.isPrefixByte ∧ i.prefixWithoutEffect = j.prefixWithoutEffect

theorem SameKind.unaffected {i j : Instr} (h : SameKind i j) : unaffectedByIndex i = unaffectedByIndex j := by
  rw [unaffectedByIndex, unaffectedByIndex, h.1, h.2]

/-- Two answers that differ only by the operand bytes that follow the row's own byte: `rest` for the one, `rest'` for the
other. The kind of the instruction does not depend on them. -/
inductive Parallel (rest rest' : List Byte) : Decoded → Decoded → Prop where
  | bare (i : Instr) : Parallel rest rest' (some (i, 1)) (some (i, 1))
  | byte (f : Byte → Instr)
      (hf : ∀ n m, SameKind (f n) (f m) := by exact fun _ _ => ⟨rfl, rfl⟩) :
      Parallel rest rest' (withByte rest f) (withByte rest' f)
  | word (f : Word → Instr)
      (hf : ∀ n m, SameKind (f n) (f m) := by exact fun _ _ => ⟨rfl, rfl⟩) :
      Parallel rest rest' (withWord rest f) (withWord rest' f)
  | dispByte (f : Byte → Byte → Instr)
      (hf : ∀ d n e m, SameKind (f d n) (f e m) := by exact fun _ _ _ _ => ⟨rfl, rfl⟩) :
      Parallel rest rest' (withDispByte rest f) (withDispByte rest' f)

theorem sameKind_aluN (y : Nat) (n m : Byte) : SameKind (aluN y n) (aluN y m) := by
  unfold aluN
  split <;> exact ⟨rfl, rfl⟩

variable {rest' : List Byte}

theorem decodeMain0_parallel : Parallel rest rest' (decodeMain0 b rest) (decodeMain0 b rest') := by
  unfold decodeMain0
  split
  case h_1 =>
    split
    case h_1 | h_2 => exact .bare _
    all_goals exact .byte _
  case h_2 =>
    split
    case h_1 => exact .word _
    case h_2 => exact .bare _
  case h_3 =>
    split
    case h_1 | h_2 | h_3 | h_4 => exact .bare _
    all_goals exact .word _
  case h_7 => split <;> exact .byte _
  all_goals split <;> exact .bare _

theorem decodeMain3_parallel : Parallel rest rest' (decodeMain3 b rest) (decodeMain3 b rest') := by
  unfold decodeMain3
  split
  case h_1 | h_8 => exact .bare _
  case h_3 | h_5 => exact .word _
  case h_2 => split <;> exact .bare _
  case h_4 =>
    split
    case h_1 => exact .word _
    case h_3 | h_4 => exact .byte _
    all_goals exact .bare _
  case h_6 =>
    split
    case h_1 => exact .word _
    all_goals exact .bare _
  case h_7 => exact .byte _ (sameKind_aluN _)

/-- The row is chosen by its own byte. -/
theorem decodeMain_parallel : Parallel rest rest' (decodeMain b rest) (decodeMain b rest') := by
  unfold decodeMain
  split
  case h_1 => exact decodeMain0_parallel
  case h_2 =>
    unfold decodeMain1
    split <;> exact .bare _
  case h_3 =>
    unfold decodeMain2
    split <;> exact .bare _
  case h_4 => exact decodeMain3_parallel

theorem Parallel.sameKind {d d' : Decoded} (hp : Parallel rest rest' d d') {i j : Instr} {n m : Nat}
    (hd : d = some (i, n)) (hd' : d' = some (j, m)) : SameKind i j := by
  cases hp with
  | bare k =>
    cases hd
    cases hd'
    exact ⟨rfl, rfl⟩
  | byte f hf =>
    match rest, rest' with
    | _ :: _, _ :: _ =>
      cases hd
      cases hd'
      exact hf _ _
  | word f hf =>
    match rest, rest' with
    | _ :: _ :: _, _ :: _ :: _ =>
      cases hd
      cases hd'
      exact hf _ _
  | dispByte f hf =>
    match rest, rest' with
    | _ :: _ :: _, _ :: _ :: _ =>
      cases hd
      cases hd'
      exact hf _ _ _ _

/-- Two operand bytes are enough for every row. -/
theorem Parallel.total {d d' : Decoded} (hp : Parallel rest rest' d d') (hlen : 2 ≤ rest'.length) :
    ∃ r, d' = some r := by
  match rest', hlen with
  | _ :: _ :: _, _ => cases hp <;> exact ⟨_, rfl⟩

/-- Only the first two operand bytes count. -/
theorem Parallel.mono {d d' : Decoded} (hp : Parallel rest rest' d d') (hpre : rest.take 2 <+: rest')
    {r : Instr × Nat} (hd : d = some r) : d' = some r := by
  obtain ⟨more, rfl⟩ := hpre
  cases hp with
  | bare k => exact hd
  | byte f =>
    match rest with
    | _ :: _ => exact hd
  | word f =>
    match rest with
    | _ :: _ :: _ => exact hd
  | dispByte f =>
    match rest with
    | _ :: _ :: _ => exact hd

/-- The byte is no prefix byte and names H, L, HL or `(HL)`, which an index prefix replaces (R96). -/
def affectedByte (b : Byte) : Bool := (decodeMain b [0, 0]).any fun r => !unaffectedByIndex r.1

theorem unaffectedByIndex_of_byte {i : Instr} {n : Nat} (hb : affectedByte b = false)
    (hd : decodeMain b rest = some (i, n)) : unaffectedByIndex i = true := by
  obtain ⟨⟨j, m⟩, hj⟩ := Parallel.total (decodeMain_parallel (b := b) (rest := rest)) (Nat.le_refl [(0 : Byte), 0].length)
  rw [affectedByte, hj] at hb
  simpa [(decodeMain_parallel.sameKind hd hj).unaffected] using hb

/-- Those bytes by their fields. -/
theorem affectedByte_fields : ∀ b : Byte, affectedByte b = true →
    (fieldX b = 0 ∧
      (fieldZ b = 1 ∧ fieldY b = 4 ∨ fieldZ b = 1 ∧ fieldY b % 2 = 1 ∨ fieldZ b = 2 ∧ (fieldY b = 4 ∨ fieldY b = 5) ∨
        fieldZ b = 3 ∧ (fieldY b = 4 ∨ fieldY b = 5) ∨
        (fieldZ b = 4 ∨ fieldZ b = 5 ∨ fieldZ b = 6) ∧ (fieldY b = 4 ∨ fieldY b = 5 ∨ fieldY b = 6))) ∨
    (fieldX b = 1 ∧ ((fieldY b = 4 ∨ fieldY b = 5 ∨ fieldY b = 6) ∨ (fieldZ b = 4 ∨ fieldZ b = 5 ∨ fieldZ b = 6)) ∧
      ¬(fieldY b = 6 ∧ fieldZ b = 6)) ∨
    (fieldX b = 2 ∧ (fieldZ b = 4 ∨ fieldZ b = 5 ∨ fieldZ b = 6)) ∨
    (fieldX b = 3 ∧ (fieldZ b = 1 ∧ (fieldY b = 4 ∨ fieldY b = 5 ∨ fieldY b = 7) ∨ fieldZ b = 3 ∧ fieldY b = 4 ∨
      fieldZ b = 5 ∧ fieldY b = 4)) := by
  decide +kernel

end Sys2Proof.Machine

namespace Sys2Proof.Machine
variable {lead rest : List Byte} {b : Byte}

/-! ### The main page behind an index prefix (R96, R97, R117) -/

theorem readBack_dispByte {f : Byte → Byte → Instr} {c : Nat} (he : ∀ d n, encode (f d n) = lead ++ [op c, d, n])
    (hc : c = b.toNat) (hw : ∀ d n, (f d n).WellFormed := by intro _ _; rfl) :
    ReadBack lead (b :: rest) (withDispByte rest f) := by
  match rest with
  | [] | [_] => exact nofun
  | d :: n :: rest =>
    rintro _ _ ⟨⟩
    rw [op_eq hc] at he
    simpa [isPrefixByte_of_wellFormed (hw _ _)] using ⟨hw d n, he d n⟩

theorem decodeUnaffected_readBack (x : Idx) (hb : affectedByte b = false) :
    ReadBack [x.byte] (b :: rest) (decodeUnaffected x b rest) := by
  intro i n h
  obtain ⟨⟨j, m⟩, hd, hj⟩ := Option.map_eq_some_iff.1 h
  have hrb := decodeMain_readBack j m hd
  have hu := unaffectedByIndex_of_byte hb hd
  cases hp : j.isPrefixByte with
  | true =>
    simp only [hp, if_true] at hj hrb
    cases hj
    simpa [hp] using hrb
  | false =>
    have hw : j.prefixWithoutEffect = true := by simpa [unaffectedByIndex, hp] using hu
    simp only [hp, Bool.false_eq_true, if_false, List.nil_append] at hj hrb
    cases hj
    exact ⟨hrb.1, hw, congrArg (x.byte :: ·) hrb.2.2⟩

theorem decodeIndex0_readBack (x : Idx) (hx : fieldX b = 0) :
    ReadBack [x.byte] (b :: rest) (decodeIndex0 x b rest) := by
  have hb := toNat_eq_fields b
  have hq := fieldY_eq b
  have hz := fieldZ_lt b
  have hy := fieldY_lt b
  have ha := affectedByte_fields b
  unfold decodeIndex0
  split
  case h_1 | h_3 | h_4 => exact readBack_word (fun _ => rfl) (by omega)
  case h_2 =>
    split
    case isTrue => exact readBack_bare rfl (by rw [rpXOf_code]; omega)
    case isFalse =>
      refine decodeUnaffected_readBack x (Bool.eq_false_iff.2 fun h => ?_)
      have := ha h
      simp only [imp_false] at *
      omega
  case h_5 | h_6 => exact readBack_bare rfl (by omega)
  case h_7 | h_8 | h_10 | h_11 => exact readBack_bare rfl (by simp only [Half.code]; omega)
  case h_9 | h_12 => exact readBack_byte (fun _ => rfl) (by omega)
  case h_13 | h_14 => exact readBack_byte (fun _ => rfl) (by simp only [Half.code]; omega)
  case h_15 => exact readBack_dispByte (fun _ _ => rfl) (by omega)
  case h_16 =>
    refine decodeUnaffected_readBack x (Bool.eq_false_iff.2 fun h => ?_)
    grind

/-- The register field under an index prefix that has the code of `r` (R96 item 2). -/
def regXLike : Reg8 → RegX
  | .b => .b | .c => .c | .d => .d | .e => .e | .h => .xyh | .l => .xyl | .a => .a

theorem regXOf_of_regOf {n : Nat} {r : Reg8} (h : regOf n = some r) : regXOf n = some (regXLike r) := by
  rw [regOf_eq_some h]
  cases r <;> rfl

theorem decodeIndex1_readBack (x : Idx) (hx : fieldX b = 1) :
    ReadBack [x.byte] (b :: rest) (decodeIndex1 x b rest) := by
  have hb := toNat_eq_fields b
  have hz := fieldZ_lt b
  have hy := fieldY_lt b
  have ha := affectedByte_fields b
  unfold decodeIndex1
  split
  case h_1 r r' hr hr' =>
    rw [regXOf_eq_some hr, regXOf_eq_some hr', hx] at hb
    split
    case isTrue hh => exact readBack_bare rfl (by omega) hh
    case isFalse hh =>
      refine decodeUnaffected_readBack x (Bool.eq_false_iff.2 fun h => ?_)
      have hf := ha h
      rw [regXOf_eq_some hr, regXOf_eq_some hr'] at hf
      cases r <;> cases r' <;> simp [RegX.isHalf, RegX.code, hx] at hh hf
  case h_2 hreg =>
    split
    case h_1 hr hr' => exact readBack_byte (fun _ => rfl) (by rw [hb, ← regOf_eq_some hr, regOf_eq_none hr' hz]; omega)
    case h_2 hr hr' => exact readBack_byte (fun _ => rfl) (by rw [hb, ← regOf_eq_some hr', regOf_eq_none hr hy]; omega)
    case h_3 hmem hmem' =>
      refine decodeUnaffected_readBack x (Bool.eq_false_iff.2 fun h => ?_)
      cases hr : regOf (fieldY b) with
      | none =>
        cases hr' : regOf (fieldZ b) with
        | none =>
          have hf := ha h
          have := regOf_eq_none hr hy
          have := regOf_eq_none hr' hz
          omega
        | some r' => exact hmem' r' hr hr'
      | some r =>
        cases hr' : regOf (fieldZ b) with
        | none => exact hmem r hr hr'
        | some r' => exact hreg _ _ (regXOf_of_regOf hr) (regXOf_of_regOf hr')

theorem encode_aluHalf {y : Nat} (h : y < 8) (x : Idx) (hf : Half) :
    encode (aluHalf y x hf) = [x.byte, op (0x80 + 8 * y + hf.code)] := by
  interval_cases y <;> rfl

theorem wellFormed_aluHalf (y : Nat) (x : Idx) (hf : Half) : (aluHalf y x hf).WellFormed := by
  unfold aluHalf
  split <;> rfl

theorem encode_aluIdx {y : Nat} (h : y < 8) (x : Idx) (d : Byte) :
    encode (aluIdx y x d) = [x.byte, op (0x86 + 8 * y), d] := by
  interval_cases y <;> rfl

theorem wellFormed_aluIdx (y : Nat) (x : Idx) (d : Byte) : (aluIdx y x d).WellFormed := by
  unfold aluIdx
  split <;> rfl

theorem decodeIndex2_readBack (x : Idx) (hx : fieldX b = 2) :
    ReadBack [x.byte] (b :: rest) (decodeIndex2 x b rest) := by
  have hb := toNat_eq_fields b
  have hy := fieldY_lt b
  have ha := affectedByte_fields b
  unfold decodeIndex2
  split
  case h_1 hf hr =>
    exact readBack_bare (encode_aluHalf hy x hf) (by rw [hb, ← halfOf_eq_some hr]; omega) (wellFormed_aluHalf _ x hf)
  case h_2 hz => exact readBack_byte (encode_aluIdx hy x) (by omega) (wellFormed_aluIdx _ x)
  case h_3 =>
    refine decodeUnaffected_readBack x (Bool.eq_false_iff.2 fun h => ?_)
    grind [halfOf]

theorem decodeIndex3_readBack (x : Idx) (hx : fieldX b = 3) :
    ReadBack [x.byte] (b :: rest) (decodeIndex3 x b rest) := by
  have hb := toNat_eq_fields b
  have ha := affectedByte_fields b
  unfold decodeIndex3
  split
  case h_6 =>
    refine decodeUnaffected_readBack x (Bool.eq_false_iff.2 fun h => ?_)
    grind
  all_goals exact readBack_bare rfl (by omega)

theorem decodeIndexMain_readBack (x : Idx) : ReadBack [x.byte] (b :: rest) (decodeIndexMain x b rest) := by
  have hlt := fieldX_lt b
  unfold decodeIndexMain
  split
  case h_1 hx => exact decodeIndex0_readBack x hx
  case h_2 hx => exact decodeIndex1_readBack x hx
  case h_3 hx => exact decodeIndex2_readBack x hx
  case h_4 => exact decodeIndex3_readBack x (by simp only [imp_false] at *; omega)

/-! ### The CB and ED pages (R98, R111, R112) -/

theorem encode_decodeCb : ∀ s : Byte, (decodeCb s).WellFormed ∧ encode (decodeCb s) = [0xCB, s] := by decide +kernel

theorem encode_rotIdx {y : Nat} (h : y < 8) (x : Idx) (d : Byte) :
    encode (rotIdx y x d) = [x.byte, 0xCB, d, op (8 * y + 6)] := by
  interval_cases y <;> rfl

theorem wellFormed_rotIdx (y : Nat) (x : Idx) (d : Byte) : (rotIdx y x d).WellFormed := by
  unfold rotIdx
  split <;> rfl

theorem encode_decodeIndexCb (x : Idx) (d s : Byte) :
    (decodeIndexCb x d s).WellFormed ∧ encode (decodeIndexCb x d s) = [x.byte, 0xCB, d, s] := by
  have hs := toNat_eq_fields s
  have hx := fieldX_lt s
  have hy := fieldY_lt s
  have hbytes {c : Nat} (h : c = s.toNat) : [x.byte, 0xCB, d, op c] = [x.byte, 0xCB, d, s] := by rw [op_eq h]
  unfold decodeIndexCb
  split
  case h_1 => exact ⟨wellFormed_rotIdx _ x d, (encode_rotIdx hy x d).trans (hbytes (by omega))⟩
  case h_2 | h_3 => exact ⟨rfl, hbytes (by rw [fin8_val hy]; omega)⟩
  case h_4 => exact ⟨rfl, hbytes (by simp only [imp_false] at *; rw [fin8_val hy]; omega)⟩
  case h_5 hne =>
    refine ⟨?_, rfl⟩
    have hz : s.toNat % 8 ≠ 6 := by simp only [fieldZ, imp_false] at *; assumption
    simpa [Instr.WellFormed, Instr.wellFormed] using hz

/-- Without an operand a sub-opcode of the ED page is the whole row. -/
theorem decodeEd_bare : ∀ s : Byte, ¬(fieldX s = 1 ∧ fieldZ s = 3) →
    ∃ r ∈ decodeEd s [], r.2 = 1 ∧ r.1.WellFormed ∧ encode r.1 = [0xED, s] := by
  decide +kernel

theorem decodeEd_readBack {s : Byte} : ReadBack [0xED] (s :: rest) (decodeEd s rest) := by
  by_cases hf : fieldX s = 1 ∧ fieldZ s = 3
  · have hs := toNat_eq_fields s
    have hq := fieldY_eq s
    simp only [decodeEd, decodeEd1, hf]
    split
    case h_1 => exact readBack_word (fun _ => rfl) (by rw [rpOf_code]; omega)
    case h_2 => exact readBack_word (fun _ => rfl) (by simp only [imp_false] at *; rw [rpOf_code]; omega)
  · obtain ⟨⟨i, _⟩, hi, rfl, hw, he⟩ := decodeEd_bare s hf
    rw [decodeEd_no_operand hf, hi]
    exact readBack_bare (c := s.toNat) (by rw [op_eq rfl]; exact he) rfl hw

/-! ### Whole instructions (R93) -/

/-- The index prefix byte that counts (R95). -/
def tagBytes : PrefixTag → List Byte
  | .none => []
  | .ix => [0xDD]
  | .iy => [0xFD]

theorem selects_eq_none {i : Instr} {tag : PrefixTag} (h : i.selects tag = none) : i.isPrefixByte = false := by
  cases i with
  | prefixCB | prefixDD | prefixED | prefixFD => cases h
  | _ => rfl

theorem selects_of_wellFormed {i : Instr} (h : i.WellFormed) (tag : PrefixTag) : i.selects tag = none := by
  cases i with
  | prefixCB | prefixDD | prefixED | prefixFD => cases h
  | _ => rfl

theorem decodeUnit_main_readBack (tag : PrefixTag) :
    ReadBack (tagBytes tag) (b :: rest) (decodeUnit tag .main (b :: rest)) := by
  cases tag with
  | none => exact decodeMain_readBack
  | ix => exact decodeIndexMain_readBack .ix
  | iy => exact decodeIndexMain_readBack .iy

theorem decodeFrom_cons_cases {tag : PrefixTag} {page : Page} {i : Instr} {n : Nat}
    (h : decodeFrom tag page (b :: rest) = some (i, n)) :
    (decodeUnit tag page (b :: rest) = some (i, n) ∧ i.isPrefixByte = false) ∨
    ∃ p k tag' page' m, decodeUnit tag page (b :: rest) = some (p, k) ∧ p.selects tag = some (tag', page') ∧
      decodeFrom tag' page' rest = some (i, m) ∧ n = m + 1 := by
  cases hu : decodeUnit tag page (b :: rest) with
  | none => simp [decodeFrom, hu] at h
  | some r =>
    obtain ⟨p, k⟩ := r
    cases hs : p.selects tag with
    | none =>
      rw [decodeFrom_whole hu hs] at h
      cases h
      exact .inl ⟨rfl, selects_eq_none hs⟩
    | some sel =>
      simp only [decodeFrom, hu, hs] at h
      obtain ⟨⟨j, m⟩, hd, hj⟩ := Option.map_eq_some_iff.1 h
      cases hj
      exact .inr ⟨p, k, sel.1, sel.2, m, rfl, hs, hd, rfl⟩

/-- On the CB page a unit is the whole instruction. -/
theorem decodeFrom_cb {tag : PrefixTag} {bytes : List Byte} {i : Instr} {n : Nat}
    (h : decodeFrom tag .cb bytes = some (i, n)) :
    i.WellFormed ∧ n ≤ bytes.length ∧ encode i = tagBytes tag ++ 0xCB :: bytes.take n := by
  match tag, bytes with
  | _, [] | .ix, [_] | .iy, [_] => cases h
  | .none, s :: rest =>
    obtain ⟨hw, he⟩ := encode_decodeCb s
    rw [decodeFrom_whole rfl (selects_of_wellFormed hw _)] at h
    cases h
    exact ⟨hw, by simp, he⟩
  | .ix, d :: s :: rest =>
    obtain ⟨hw, he⟩ := encode_decodeIndexCb .ix d s
    rw [decodeFrom_whole rfl (selects_of_wellFormed hw _)] at h
    cases h
    exact ⟨hw, by simp, he⟩
  | .iy, d :: s :: rest =>
    obtain ⟨hw, he⟩ := encode_decodeIndexCb .iy d s
    rw [decodeFrom_whole rfl (selects_of_wellFormed hw _)] at h
    cases h
    exact ⟨hw, by simp, he⟩

/-- The row of a prefix byte is that byte. -/
theorem encode_isPrefixByte {p : Instr} {k : Nat} (hp : p.isPrefixByte = true) (he : encode p = (b :: rest).take k) :
    encode p = [b] := by
  cases k with
  | zero =>
    cases p with
    | prefixCB | prefixDD | prefixED | prefixFD => cases he
    | _ => cases hp
  | succ k =>
    cases p with
    | prefixCB | prefixDD | prefixED | prefixFD =>
      injection he with he
      rw [← he]
      rfl
    | _ => cases hp

/-- The four prefix bytes are no sub-opcodes of the ED page. -/
theorem decodeEd_isPrefixByte {s : Byte} {i : Instr} {n : Nat} (h : decodeEd s rest = some (i, n)) :
    i.isPrefixByte = false := by
  cases hp : i.isPrefixByte with
  | false => rfl
  | true =>
    obtain ⟨-, he⟩ := decodeEd_readBack i n h
    simp only [hp, if_true] at he
    have hund : definedEd.contains s.toNat = false := by
      cases i with
      | prefixCB | prefixDD | prefixED | prefixFD =>
        cases encode_isPrefixByte hp he
        rfl
      | _ => cases hp
    rw [decodeEd_of_not_defined hund] at h
    cases h
    cases hp

/-- On the ED page too. -/
theorem decodeFrom_ed {tag : PrefixTag} {bytes : List Byte} {i : Instr} {n : Nat}
    (h : decodeFrom tag .ed bytes = some (i, n)) :
    i.WellFormed ∧ n ≤ bytes.length ∧ encode i = 0xED :: bytes.take n := by
  cases bytes with
  | nil => cases h
  | cons s rest =>
    have hall {p : Instr} {k : Nat} (hu : decodeUnit tag .ed (s :: rest) = some (p, k)) :
        p.isPrefixByte = false ∧ k ≤ (s :: rest).length ∧ p.WellFormed ∧ encode p = 0xED :: (s :: rest).take k := by
      have hd : decodeEd s rest = some (p, k) := by cases tag <;> exact hu
      have hp := decodeEd_isPrefixByte hd
      have hrb := decodeEd_readBack p k hd
      simp only [hp, Bool.false_eq_true, if_false] at hrb
      exact ⟨hp, hrb⟩
    rcases decodeFrom_cons_cases h with ⟨hu, -⟩ | ⟨p, k, _, _, _, hu, hs, -⟩
    · obtain ⟨-, hn, hw, he⟩ := hall hu
      exact ⟨hw, hn, he⟩
    · obtain ⟨-, -, hw, -⟩ := hall hu
      rw [selects_of_wellFormed hw] at hs
      cases hs

/-- The bytes taken are index prefix bytes and then the instruction, given those that were read before. -/
theorem decodeFrom_main {bytes : List Byte} : ∀ {tag : PrefixTag} {i : Instr} {n : Nat},
    decodeFrom tag .main bytes = some (i, n) →
    i.WellFormed ∧ n ≤ bytes.length ∧
      ∃ pre, (∀ b ∈ pre, IsPrefix b) ∧ tagBytes tag ++ bytes.take n = pre ++ encode i := by
  induction bytes with
  | nil => intro tag i n h; cases h
  | cons b rest ih =>
    intro tag i n h
    have htag : ∀ b ∈ tagBytes tag, IsPrefix b := by cases tag <;> simp [tagBytes, IsPrefix]
    rcases decodeFrom_cons_cases h with ⟨hu, hp⟩ | ⟨p, k, tag', page', m, hu, hs, hd, rfl⟩
    · obtain ⟨hk, hrb⟩ := decodeUnit_main_readBack tag i n hu
      simp only [hp, Bool.false_eq_true, if_false] at hrb
      exact ⟨hrb.1, hk, [], nofun, hrb.2.symm⟩
    · obtain ⟨hk, hrb⟩ := decodeUnit_main_readBack tag p k hu
      cases p with
      | prefixCB =>
        cases hs
        cases encode_isPrefixByte rfl hrb
        obtain ⟨hw, hn, he⟩ := decodeFrom_cb hd
        exact ⟨hw, Nat.succ_le_succ hn, [], nofun, he.symm⟩
      | prefixED =>
        cases hs
        cases encode_isPrefixByte rfl hrb
        obtain ⟨hw, hn, he⟩ := decodeFrom_ed hd
        exact ⟨hw, Nat.succ_le_succ hn, tagBytes tag, htag, congrArg (tagBytes tag ++ ·) he.symm⟩
      | prefixDD | prefixFD =>
        cases hs
        cases encode_isPrefixByte rfl hrb
        obtain ⟨hw, hn, pre, hpre, he⟩ := ih hd
        refine ⟨hw, Nat.succ_le_succ hn, tagBytes tag ++ pre, ?_, ?_⟩
        · exact List.forall_mem_append.2 ⟨htag, hpre⟩
        · rw [List.append_assoc, ← he]
          rfl
      | _ => cases hs

/-- Settles O2: the index prefixes that were overridden come first, and the rest is the encoding. -/
theorem encodeOfDecode : Obligations.EncodeOfDecode := by
  intro bytes i n h
  obtain ⟨hw, hn, pre, hpre, he⟩ := decodeFrom_main h
  refine ⟨hw, pre, hpre, he, ?_⟩
  rw [← List.length_append, ← he]
  simpa [tagBytes] using hn

end Sys2Proof.Machine

/-! ## How many bytes a unit looks at (R90, R118) -/

namespace Sys2Proof.Machine

variable {rest rest' : List Byte} {b : Byte}

/-- What an index prefix makes of a main-page row that it does not replace. -/
def wrapUnaffected (x : Idx) (i : Instr) : Instr := if i.isPrefixByte then i else .pOp x i

theorem decodeUnaffected_eq (x : Idx) :
    decodeUnaffected x b rest = (decodeMain b rest).map fun r => (wrapUnaffected x r.1, r.2) := by
  unfold decodeUnaffected
  congr 1
  funext ⟨i, n⟩
  simp only [wrapUnaffected]
  split <;> rfl

theorem SameKind.wrap {i j : Instr} (h : SameKind i j) (x : Idx) :
    SameKind (wrapUnaffected x i) (wrapUnaffected x j) := by
  have hj := h.1.symm
  cases hi : i.isPrefixByte <;> rw [hi] at hj <;> simp only [wrapUnaffected, hi, hj]
  · exact ⟨rfl, rfl⟩
  · exact h

theorem withByte_map (g : Instr → Instr) (f : Byte → Instr) (rest : List Byte) :
    (withByte rest f).map (fun r => (g r.1, r.2)) = withByte rest fun n => g (f n) := by
  cases rest <;> rfl

theorem withWord_map (g : Instr → Instr) (f : Word → Instr) (rest : List Byte) :
    (withWord rest f).map (fun r => (g r.1, r.2)) = withWord rest fun nn => g (f nn) := by
  match rest with
  | [] | [_] | _ :: _ :: _ => rfl

theorem withDispByte_map (g : Instr → Instr) (f : Byte → Byte → Instr) (rest : List Byte) :
    (withDispByte rest f).map (fun r => (g r.1, r.2)) = withDispByte rest fun d n => g (f d n) := by
  match rest with
  | [] | [_] | _ :: _ :: _ => rfl

theorem Parallel.map {d d' : Decoded} (hp : Parallel rest rest' d d') {g : Instr → Instr}
    (hg : ∀ i j, SameKind i j → SameKind (g i) (g j)) :
    Parallel rest rest' (d.map fun r => (g r.1, r.2)) (d'.map fun r => (g r.1, r.2)) := by
  cases hp with
  | bare i => exact .bare _
  | byte f hf =>
    rw [withByte_map, withByte_map]
    exact .byte _ fun n m => hg _ _ (hf n m)
  | word f hf =>
    rw [withWord_map, withWord_map]
    exact .word _ fun n m => hg _ _ (hf n m)
  | dispByte f hf =>
    rw [withDispByte_map, withDispByte_map]
    exact .dispByte _ fun d n e m => hg _ _ (hf d n e m)

theorem decodeUnaffected_parallel (x : Idx) :
    Parallel rest rest' (decodeUnaffected x b rest) (decodeUnaffected x b rest') := by
  rw [decodeUnaffected_eq, decodeUnaffected_eq]
  exact decodeMain_parallel.map fun _ _ h => h.wrap x

theorem decodeIndex0_parallel (x : Idx) : Parallel rest rest' (decodeIndex0 x b rest) (decodeIndex0 x b rest') := by
  unfold decodeIndex0
  split
  case h_1 | h_3 | h_4 => exact .word _
  case h_2 =>
    split
    · exact .bare _
    · exact decodeUnaffected_parallel x
  case h_9 | h_12 | h_13 | h_14 => exact .byte _
  case h_15 => exact .dispByte _
  case h_16 => exact decodeUnaffected_parallel x
  all_goals exact .bare _

theorem decodeIndex1_parallel (x : Idx) : Parallel rest rest' (decodeIndex1 x b rest) (decodeIndex1 x b rest') := by
  unfold decodeIndex1
  split
  case h_1 =>
    split
    · exact .bare _
    · exact decodeUnaffected_parallel x
  case h_2 =>
    split
    case h_1 | h_2 => exact .byte _
    case h_3 => exact decodeUnaffected_parallel x

theorem sameKind_aluIdx (y : Nat) (x : Idx) (n m : Byte) : SameKind (aluIdx y x n) (aluIdx y x m) := by
  unfold aluIdx
  split <;> exact ⟨rfl, rfl⟩

/-- The row behind an index prefix is chosen by its own byte. -/
theorem decodeIndexMain_parallel (x : Idx) :
    Parallel rest rest' (decodeIndexMain x b rest) (decodeIndexMain x b rest') := by
  unfold decodeIndexMain
  split
  case h_1 => exact decodeIndex0_parallel x
  case h_2 => exact decodeIndex1_parallel x
  case h_3 =>
    unfold decodeIndex2
    split
    case h_1 => exact .bare _
    case h_2 => exact .byte _ (sameKind_aluIdx _ x)
    case h_3 => exact decodeUnaffected_parallel x
  case h_4 =>
    unfold decodeIndex3
    split
    case h_6 => exact decodeUnaffected_parallel x
    all_goals exact .bare _

/-- The row of the ED page is chosen by the sub-opcode. -/
theorem decodeEd_parallel : Parallel rest rest' (decodeEd b rest) (decodeEd b rest') := by
  by_cases hf : fieldX b = 1 ∧ fieldZ b = 3
  · simp only [decodeEd, decodeEd1, hf]
    split <;> exact .word _
  · obtain ⟨⟨i, _⟩, hi, rfl, -⟩ := decodeEd_bare b hf
    rw [decodeEd_no_operand hf rest, decodeEd_no_operand hf rest', hi]
    exact .bare i

/-- A unit looks at no byte after the third. -/
theorem decodeUnit_mono {tag : PrefixTag} {page : Page} {bytes bytes' : List Byte} {r : Instr × Nat}
    (h : decodeUnit tag page bytes = some r) (hpre : bytes.take 3 <+: bytes') : decodeUnit tag page bytes' = some r := by
  obtain ⟨more, rfl⟩ := hpre
  cases bytes with
  | nil => cases tag <;> cases page <;> cases h
  | cons b rest =>
    have hrest : rest.take 2 <+: rest.take 2 ++ more := List.prefix_append _ _
    match tag, page with
    | .none, .main => exact decodeMain_parallel.mono hrest h
    | .ix, .main => exact (decodeIndexMain_parallel .ix).mono hrest h
    | .iy, .main => exact (decodeIndexMain_parallel .iy).mono hrest h
    | .none, .cb => exact h
    | .ix, .cb | .iy, .cb =>
      cases rest with
      | nil => cases h
      | cons s rest => exact h
    | .none, .ed | .ix, .ed | .iy, .ed => exact decodeEd_parallel.mono hrest h

/-- Three bytes are enough for every unit. -/
theorem decodeUnit_total (tag : PrefixTag) (page : Page) {bytes : List Byte} (hlen : 3 ≤ bytes.length) :
    ∃ r, decodeUnit tag page bytes = some r := by
  cases bytes with
  | nil => cases hlen
  | cons b rest =>
    have hrest : 2 ≤ rest.length := Nat.le_of_succ_le_succ hlen
    match tag, page with
    | .none, .main => exact decodeMain_parallel (rest := rest).total hrest
    | .ix, .main => exact (decodeIndexMain_parallel (rest := rest) .ix).total hrest
    | .iy, .main => exact (decodeIndexMain_parallel (rest := rest) .iy).total hrest
    | .none, .cb => exact ⟨_, rfl⟩
    | .ix, .cb | .iy, .cb =>
      match rest, hrest with
      | s :: rest, _ => exact ⟨_, rfl⟩
    | .none, .ed | .ix, .ed | .iy, .ed => exact decodeEd_parallel (rest := rest).total hrest

end Sys2Proof.Machine

/-! ## What an instruction leaves alone (10_state.md) -/

namespace Sys2Proof.Machine

/-- What all but a dozen instructions do with the parts that few write: they keep I, R, `im`, the flip-flops, the shadow
file, the tags, the fault latch and the configuration, and a new request wakes the CPU where interrupts are enabled. -/
structure Ordinary (s t : State) : Prop where
  shadow : t.shadow = s.shadow
  regI : t.regI = s.regI
  regR : t.regR = s.regR
  iff1 : t.iff1 = s.iff1
  iff2 : t.iff2 = s.iff2
  im : t.im = s.im
  tag : t.prefixTag = s.prefixTag
  page : t.page = s.page
  fault : t.fault = s.fault
  cfg : t.cfg = s.cfg
  events : s.events <+: t.events
  halted : t.halted = true → s.halted = true
  pending : s.pending = true → t.pending = true
  wakes : t.pending = true → s.pending = true ∨ (s.iff1 = true → t.halted = false)
  memory : Memory.wf s.mem = true → Memory.wf t.mem = true

namespace Ordinary

/-- A change of the registers, SP, PC and memory only. -/
theorem of_registers (s : State) (k : Bank) (ix iy sp pc : Word) {m : Memory}
    (hm : Memory.wf s.mem = true → Memory.wf m = true) :
    Ordinary s { s with main := k, ix := ix, iy := iy, sp := sp, pc := pc, mem := m } where
  shadow := rfl
  regI := rfl
  regR := rfl
  iff1 := rfl
  iff2 := rfl
  im := rfl
  tag := rfl
  page := rfl
  fault := rfl
  cfg := rfl
  events := List.prefix_rfl
  halted := id
  pending := id
  wakes := .inl
  memory := hm

variable (s : State)

theorem refl : Ordinary s s := of_registers s s.main s.ix s.iy s.sp s.pc id

theorem trans {s t u : State} (h : Ordinary s t) (h' : Ordinary t u) : Ordinary s u where
  shadow := h'.shadow.trans h.shadow
  regI := h'.regI.trans h.regI
  regR := h'.regR.trans h.regR
  iff1 := h'.iff1.trans h.iff1
  iff2 := h'.iff2.trans h.iff2
  im := h'.im.trans h.im
  tag := h'.tag.trans h.tag
  page := h'.page.trans h.page
  fault := h'.fault.trans h.fault
  cfg := h'.cfg.trans h.cfg
  events := h.events.trans h'.events
  halted := h.halted ∘ h'.halted
  pending := h'.pending ∘ h.pending
  wakes := fun hu => by
    rcases h'.wakes hu with ht | ht
    · refine (h.wakes ht).imp_right fun hs hi => Bool.eq_false_iff.2 fun hh => ?_
      exact Bool.eq_false_iff.1 (hs hi) (h'.halted hh)
    · exact .inr fun hi => ht (h.iff1.trans hi)
  memory := h'.memory ∘ h.memory

theorem setMain (k : Bank) : Ordinary s (s.setMain k) := of_registers s k s.ix s.iy s.sp s.pc id

theorem setPc (v : Word) : Ordinary s (s.setPc v) := of_registers s s.main s.ix s.iy s.sp v id

theorem setSp (v : Word) : Ordinary s (s.setSp v) := of_registers s s.main s.ix s.iy v s.pc id

theorem setXy (x : Idx) (v : Word) : Ordinary s (s.setXy x v) := by
  cases x with
  | ix => exact of_registers s s.main v s.iy s.sp s.pc id
  | iy => exact of_registers s s.main s.ix v s.sp s.pc id

theorem setHalf (x : Idx) (hf : Half) (v : Byte) : Ordinary s (s.setHalf x hf v) := by
  cases hf <;> exact setXy s x _

theorem setRegX (x : Idx) (r : RegX) (v : Byte) : Ordinary s (s.setRegX x r v) := by
  cases r with
  | xyh => exact setHalf s x .high v
  | xyl => exact setHalf s x .low v
  | _ => exact setMain s _

theorem setRp (rp : Rp) (v : Word) : Ordinary s (s.setRp rp v) := by
  cases rp with
  | sp => exact setSp s v
  | _ => exact setMain s _

theorem setRp2 (rp2 : Rp2) (v : Word) : Ordinary s (s.setRp2 rp2 v) := by
  cases rp2 <;> exact setMain s _

theorem writeByte (a : Word) (v : Byte) : Ordinary s (s.writeByte a v) :=
  of_registers s s.main s.ix s.iy s.sp s.pc fun h => State.wf_writeByte h a v

theorem writeWord (a v : Word) : Ordinary s (s.writeWord a v) := (writeByte s a _).trans (writeByte _ _ _)

theorem pushed (v : Word) : Ordinary s (s.pushed v) :=
  of_registers s s.main s.ix s.iy _ s.pc fun h => State.wf_pushed h v

theorem popped : Ordinary s s.popped := setSp s _

theorem record (e : Event) : Ordinary s (s.record e) :=
  { refl s with events := List.prefix_append _ _ }

/-- A handler's interrupt request sets the latch and clears `halted` where interrupts are enabled (R437). -/
theorem callHandler (answer : HandlerReply) : Ordinary s (s.callHandler answer).2 := by
  rw [s.callHandler_eq]
  generalize s.replies.headD answer = r
  refine { refl s with halted := ?halted, pending := ?pending, wakes := ?wakes }
  case halted => exact fun h => (Bool.and_eq_true_iff.1 h).1
  case pending => exact fun h => Bool.or_eq_true_iff.2 (.inl h)
  case wakes =>
    intro h
    refine (Bool.or_eq_true_iff.1 h).imp_right fun hr hi => ?_
    show (s.halted && !(r.irq && s.iff1)) = false
    simp [hr, hi]

theorem portRead (p : Byte) : Ordinary s (s.portRead p).2 := by
  cases h : s.cfg.inPorts.lookup p with
  | some fn =>
    rw [s.portRead_mapped p fn h]
    exact (callHandler s _).trans (record _ _)
  | none =>
    rw [s.portRead_unmapped p h]
    exact record s _

theorem portWrite (p v : Byte) : Ordinary s (s.portWrite p v) := by
  cases h : s.cfg.outPorts.lookup p with
  | some fn =>
    rw [s.portWrite_mapped p v fn h]
    exact (record s _).trans (callHandler _ _)
  | none =>
    rw [s.portWrite_unmapped p v h]
    exact record s _

theorem moveStep (dir : Dir) : Ordinary s (s.moveStep dir) := (writeByte s _ _).trans (setMain _ _)

theorem compareStep (dir : Dir) : Ordinary s (s.compareStep dir) := setMain s _

theorem inStep (dir : Dir) : Ordinary s (s.inStep dir) :=
  (portRead s s.main.c).trans ((writeByte _ _ _).trans (setMain _ _))

theorem outStep (dir : Dir) : Ordinary s (s.outStep dir) := (portWrite s _ _).trans (setMain _ _)

/-- A repeating form is ordinary because each of its turns is. -/
theorem repeatUntil {stop : State → Bool} {body : State → State} (hb : ∀ s, Ordinary s (body s)) (n : Nat) :
    Ordinary s (repeatUntil stop body n s) :=
  repeatUntil_keeps (P := Ordinary s) (fun t h => h.trans (hb t)) n (refl s)

theorem of_pushThen {v : Word} {k : State → State} {s t : State} (hk : ∀ u, Ordinary u (k u))
    (h : pushThen v k s = .next t) : Ordinary s t := by
  rcases pushThen_cases v k s with ⟨-, e⟩ | ⟨-, e⟩ | ⟨-, -, e⟩ <;> rw [e] at h <;> cases h
  exact (pushed s v).trans (hk _)

theorem of_popThen {k : Word → State → State} {s t : State} (hk : ∀ v u, Ordinary u (k v u))
    (h : popThen k s = .next t) : Ordinary s t := by
  rcases popThen_cases k s with ⟨-, e⟩ | ⟨-, e⟩ | ⟨-, -, e⟩ <;> rw [e] at h <;> cases h
  exact (popped s).trans (hk _ _)

end Ordinary

/-! ### The prefix without effect (R117) -/

/-- `P op` means what `op` means, or it is no instruction. -/
theorem exec_pOp_cases (x : Idx) (i : Instr) (s : State) :
    (exec (.pOp x i) s = exec i s ∧ bareInstr i = i) ∨
    (exec (.pOp x i) s = .refused .prefixHasEffect ∧ i.prefixWithoutEffect = false) := by
  cases i with
  | nop | exAfAf | djnz | jr | jrCc | ldRpNn | incRp | decRp | ldIndBcA | ldIndDeA | ldMemA | ldAIndBc | ldAIndDe | ldAMem
  | incR | decR | ldRN | rlca | rrca | rla | rra | daa | cpl | scf | ccf | halt | ldRR | addAR | adcAR | subR | sbcAR
  | andR | xorR | orR | cpR | addAN | adcAN | subN | sbcAN | andN | xorN | orN | cpN | popRp2 | pushRp2 | retCc | ret | exx
  | exDeHl | jpCcNn | jpNn | outNA | inAN | di | ei | callCcNn | callNn | rst => exact .inl ⟨rfl, rfl⟩
  | _ => exact .inr ⟨rfl, rfl⟩

theorem exec_pOp_of_unaffected {i : Instr} (h : i.prefixWithoutEffect = true) (x : Idx) (s : State) :
    exec (.pOp x i) s = exec i s := by
  rcases exec_pOp_cases x i s with ⟨he, -⟩ | ⟨-, hn⟩
  · exact he
  · rw [h] at hn
    cases hn

/-- What completes, completes as its unprefixed form. -/
theorem exec_bareInstr {i : Instr} {s t : State} (h : exec i s = .next t) :
    exec (bareInstr i) s = .next t ∧ bareInstr (bareInstr i) = bareInstr i := by
  cases i with
  | pOp x i =>
    rcases exec_pOp_cases x i s with ⟨he, hb⟩ | ⟨he, -⟩
    · exact ⟨he ▸ h, hb⟩
    · rw [he] at h
      cases h
  | _ => exact ⟨h, rfl⟩

/-! ### The ordinary instructions -/

/-- All but those that write I, R, `im`, the flip-flops, the shadow file, `halted` or the tags by themselves. -/
def ordinaryInstr : Instr → Bool
  | .exAfAf | .exx | .halt | .di | .ei | .im0 | .im1 | .im2 | .ldIA | .ldRA | .retn => false
  | .prefixCB | .prefixDD | .prefixED | .prefixFD => false
  | _ => true

theorem ordinary_ite {c : Prop} [Decidable c] {s t u : State} (ht : Ordinary s t) (hu : Ordinary s u) :
    Ordinary s (if c then t else u) := by
  split
  · exact ht
  · exact hu

theorem ordinary_of_exec_bare {i : Instr} {s t : State} (hb : bareInstr i = i) (hi : ordinaryInstr i = true)
    (h : exec i s = .next t) : Ordinary s t := by
  cases i with
  | exAfAf | exx | halt | di | ei | im0 | im1 | im2 | ldIA | ldRA | retn | prefixCB | prefixDD | prefixED | prefixFD =>
    cases hi
  | pOp x i =>
    cases i <;> cases hb
  | nop =>
    cases h
    exact .refl s
  | ldRR | ldRN | ldRIndHl | ldRIdx | ldAIndBc | ldAIndDe | ldAMem | ldAI | ldAR | ldHlMem | exDeHl | addHlRp | adcHlRp
  | sbcHlRp | addAR | addAIndHl | addAN | addAIdx | addAHalf | adcAR | adcAIndHl | adcAN | adcAIdx | adcAHalf | subR
  | subIndHl | subN | subIdx | subHalf | sbcAR | sbcAIndHl | sbcAN | sbcAIdx | sbcAHalf | andR | andIndHl | andN | andIdx
  | andHalf | xorR | xorIndHl | xorN | xorIdx | xorHalf | orR | orIndHl | orN | orIdx | orHalf | cpR | cpIndHl | cpN
  | cpIdx | cpHalf | incR | decR | daa | cpl | neg | scf | ccf | rlca | rrca | rla | rra | rlcR | rrcR | rlR | rrR | slaR
  | sraR | srlR | bitR | bitIndHl | bitIdx | resR | setR | cpi | cpd =>
    cases h
    exact .setMain s _
  | jpNn | jpHl | jpXy | jr =>
    cases h
    exact .setPc s _
  | jpCcNn | jrCc =>
    cases h
    exact ordinary_ite (.setPc s _) (.refl s)
  | djnz e =>
    cases h
    exact ordinary_ite (.setMain s _) ((Ordinary.setMain s _).trans (.setPc _ _))
  | ldSpHl | ldSpXy =>
    cases h
    exact .setSp s _
  | ldRpNn | ldRpMem =>
    cases h
    exact .setRp s _ _
  | ldXyNn | ldXyMem | incXy | decXy =>
    cases h
    exact .setXy s _ _
  | ldHalfN =>
    cases h
    exact .setHalf s _ _ _
  | ldRRHalf =>
    cases h
    exact .setRegX s _ _ _
  | addXyRp =>
    cases h
    exact (Ordinary.setXy s _ _).trans (.setMain _ _)
  | incHalf | decHalf =>
    cases h
    exact (Ordinary.setHalf s _ _ _).trans (.setMain _ _)
  | ldIndHlR | ldIdxR | ldIndHlN | ldIdxN | ldIndBcA | ldIndDeA | ldMemA | resIndHl | resIdx | setIndHl | setIdx =>
    cases h
    exact .writeByte s _ _
  | ldMemHl | ldMemXy | ldMemRp =>
    cases h
    exact .writeWord s _ _
  | incIndHl | incIdx | decIndHl | decIdx | rlcIndHl | rlcIdx | rrcIndHl | rrcIdx | rlIndHl | rlIdx | rrIndHl | rrIdx
  | slaIndHl | slaIdx | sraIndHl | sraIdx | srlIndHl | srlIdx | rrd | rld =>
    cases h
    exact (Ordinary.writeByte s _ _).trans (.setMain _ _)
  | exIndSpHl =>
    cases h
    exact (Ordinary.writeWord s _ _).trans (.setMain _ _)
  | exIndSpXy =>
    cases h
    exact (Ordinary.writeWord s _ _).trans (.setXy _ _ _)
  | unknownCb | unknownIndexCb | unknownIndexCb36 | unknownEd =>
    cases h
    exact .record s _
  | incRp rp =>
    cases rp with
    | sp =>
      simp only [exec, execIncRp, incSp] at h
      split at h <;> cases h
      exact .setSp s _
    | _ =>
      cases h
      exact .setMain s _
  | decRp rp =>
    cases rp with
    | sp =>
      simp only [exec, execDecRp, decSp] at h
      split at h <;> cases h
      exact .setSp s _
    | _ =>
      cases h
      exact .setMain s _
  | pushRp2 | pushXy => exact .of_pushThen (fun u => .refl u) h
  | callNn | rst => exact .of_pushThen (fun u => .setPc u _) h
  | callCcNn cc nn =>
    simp only [exec, execCallCcNn] at h
    split at h
    · exact .of_pushThen (fun u => .setPc u _) h
    · cases h
      exact .refl s
  | popRp2 => exact .of_popThen (fun v u => .setRp2 u _ v) h
  | popXy => exact .of_popThen (fun v u => .setXy u _ v) h
  | ret | reti => exact .of_popThen (fun v u => .setPc u v) h
  | retCc cc =>
    simp only [exec, execRetCc] at h
    split at h
    · exact .of_popThen (fun v u => .setPc u v) h
    · cases h
      exact .refl s
  | inAN =>
    cases h
    exact (Ordinary.portRead s _).trans (.setMain _ _)
  | inRC =>
    cases h
    exact (Ordinary.portRead s _).trans (.setMain _ _)
  | outNA | outCR =>
    cases h
    exact .portWrite s _ _
  | ldi | ldd =>
    cases h
    exact .moveStep s _
  | ini | ind =>
    cases h
    exact .inStep s _
  | outi | outd =>
    cases h
    exact .outStep s _
  | ldir | lddr =>
    cases h
    exact .repeatUntil s (Ordinary.moveStep · _) _
  | cpir | cpdr =>
    cases h
    exact .repeatUntil s (Ordinary.compareStep · _) _
  | inir | indr =>
    cases h
    exact .repeatUntil s (Ordinary.inStep · _) _
  | otir | otdr =>
    cases h
    exact .repeatUntil s (Ordinary.outStep · _) _

end Sys2Proof.Machine

/-! ## Claims over all instructions: who writes what, what can fault -/

namespace Sys2Proof.Machine

/-- Settles O53: an ordinary instruction writes none of these parts, and the others are gone through one by one. -/
theorem whoWritesWhat : Obligations.WhoWritesWhat := by
  intro i s t h
  obtain ⟨h, hb⟩ := exec_bareInstr h
  generalize bareInstr i = j at h hb ⊢
  by_cases hj : ordinaryInstr j = true
  · have ho := ordinary_of_exec_bare hb hj h
    exact ⟨fun _ => ho.regI, fun _ => ho.regR, fun _ => ho.im, fun _ => ho.iff1, fun _ => ho.iff2, fun _ => ho.shadow,
      fun hh => .inl (ho.halted hh), ho.pending, ho.fault, ho.cfg, ho.events⟩
  · cases j with
    | exAfAf | exx | halt | di | ei | im0 | im1 | im2 | ldIA | ldRA | prefixCB | prefixDD | prefixED | prefixFD =>
      cases h
      simp [Same, State.select]
    | retn =>
      rcases popThen_cases (fun v t => { t.setPc v with iff1 := t.iff2 }) s with ⟨-, e⟩ | ⟨-, e⟩ | ⟨-, -, e⟩ <;>
        cases e.symm.trans h
      simp [Same, State.popped]
    | _ => exact absurd rfl hj

/-! ### Completion or the stack fault (60_exceptions.md R430, R431) -/

/-- The stack fault, with what it leaves; memory stays canonical. -/
def StackFaulted (s : State) (r : Result) : Prop :=
  ∃ t, r = .fault (.stackOutOfRange t) ∧ t.fault = some .stackOutOfRange ∧ t.halted = true ∧
    (Memory.wf s.mem = true → Memory.wf t.mem = true)

theorem pushThen_outcome (v : Word) (k : State → State) (s : State) :
    (∃ t, pushThen v k s = .next t) ∨ StackFaulted s (pushThen v k s) := by
  rcases pushThen_cases v k s with ⟨-, e⟩ | ⟨-, e⟩ | ⟨-, -, e⟩
  · exact .inr ⟨_, e, rfl, rfl, id⟩
  · exact .inr ⟨_, e, rfl, rfl, fun h => Memory.wf_write h (by decide) _⟩
  · exact .inl ⟨_, e⟩

theorem popThen_outcome (k : Word → State → State) (s : State) :
    (∃ t, popThen k s = .next t) ∨ StackFaulted s (popThen k s) := by
  rcases popThen_cases k s with ⟨-, e⟩ | ⟨-, e⟩ | ⟨-, -, e⟩
  · exact .inr ⟨_, e, rfl, rfl, id⟩
  · exact .inr ⟨_, e, rfl, rfl, id⟩
  · exact .inl ⟨_, e⟩

theorem incSp_outcome (s : State) : (∃ t, incSp s = .next t) ∨ StackFaulted s (incSp s) := by
  unfold incSp
  split
  · exact .inr ⟨_, rfl, rfl, rfl, id⟩
  · exact .inl ⟨_, rfl⟩

theorem decSp_outcome (s : State) : (∃ t, decSp s = .next t) ∨ StackFaulted s (decSp s) := by
  unfold decSp
  split
  · exact .inr ⟨_, rfl, rfl, rfl, id⟩
  · exact .inl ⟨_, rfl⟩

theorem exec_bare_outcome {i : Instr} (hb : bareInstr i = i) (s : State) :
    (∃ t, exec i s = .next t) ∨ (usesStack i = true ∧ StackFaulted s (exec i s)) := by
  cases i with
  | pOp x i => cases i <;> cases hb
  | pushRp2 | pushXy | callNn | rst => exact (pushThen_outcome _ _ s).imp_right fun h => ⟨rfl, h⟩
  | popRp2 | popXy | ret | reti | retn => exact (popThen_outcome _ s).imp_right fun h => ⟨rfl, h⟩
  | callCcNn cc nn =>
    simp only [exec, execCallCcNn]
    split
    · exact (pushThen_outcome _ _ s).imp_right fun h => ⟨rfl, h⟩
    · exact .inl ⟨_, rfl⟩
  | retCc cc =>
    simp only [exec, execRetCc]
    split
    · exact (popThen_outcome _ s).imp_right fun h => ⟨rfl, h⟩
    · exact .inl ⟨_, rfl⟩
  | incRp rp =>
    cases rp with
    | sp => exact (incSp_outcome s).imp_right fun h => ⟨rfl, h⟩
    | _ => exact .inl ⟨_, rfl⟩
  | decRp rp =>
    cases rp with
    | sp => exact (decSp_outcome s).imp_right fun h => ⟨rfl, h⟩
    | _ => exact .inl ⟨_, rfl⟩
  | _ => exact .inl ⟨_, rfl⟩

theorem exec_outcome {i : Instr} (hw : i.WellFormed) (s : State) :
    (∃ t, exec i s = .next t) ∨ (usesStack (bareInstr i) = true ∧ StackFaulted s (exec i s)) := by
  cases i with
  | pOp x i =>
    rcases exec_pOp_cases x i s with ⟨he, hb⟩ | ⟨-, hn⟩
    · rw [he]
      exact exec_bare_outcome hb s
    · cases hn.symm.trans hw
  | _ => exact exec_bare_outcome rfl s

/-- Settles O52: only the stack operations and the counting of SP do not answer a next state outright. -/
theorem onlyStackFaults : Obligations.OnlyStackFaults := by
  intro i s hw
  refine (exec_outcome hw s).imp_right fun ⟨hu, t, he, hf, hh, _⟩ => ⟨hu, t, he, hf, hh⟩

/-! ### Y and X (10_state.md R28) -/

/-- Y and X of a flag byte. -/
def yxBits (f : Byte) : Bool × Bool := (flagOf f .y, flagOf f .x)

/-- Both states have the same Y and X. -/
def SameYX (s t : State) : Prop := yxBits t.main.f = yxBits s.main.f

theorem yxBits_keepYX (f : Byte) (s z h pv n c : Bool) : yxBits (keepYX f s z h pv n c) = yxBits f := by
  rw [yxBits, flagOf_keepYX, flagOf_keepYX]
  rfl

theorem sameYX_ite {c : Prop} [Decidable c] {s t u : State} (ht : SameYX s t) (hu : SameYX s u) :
    SameYX s (if c then t else u) := by
  split
  · exact ht
  · exact hu

theorem portRead_main (s : State) (p : Byte) : (s.portRead p).2.main = s.main := by rw [s.portRead_eq p]

theorem portWrite_main (s : State) (p v : Byte) : (s.portWrite p v).main = s.main := by rw [s.portWrite_eq p v]

theorem exec_inAN (n : Byte) (s : State) :
    exec (.inAN n) s = .next ((s.portRead n).2.setA (s.portRead n).1) := rfl

theorem sameYX_of_f {s t : State} (h : t.main.f = s.main.f) : SameYX s t := congrArg yxBits h

theorem SameYX.trans {s t u : State} (h : SameYX s t) (h' : SameYX t u) : SameYX s u := Eq.trans h' h

theorem sameYX_of_pushThen {v : Word} {k : State → State} {s t : State} (h : pushThen v k s = .next t)
    (hk : ∀ u, (k u).main.f = u.main.f) : SameYX s t := by
  rcases pushThen_cases v k s with ⟨-, e⟩ | ⟨-, e⟩ | ⟨-, -, e⟩ <;> cases e.symm.trans h
  exact sameYX_of_f (hk _)

theorem sameYX_of_popThen {k : Word → State → State} {s t : State} (h : popThen k s = .next t)
    (hk : ∀ v u, (k v u).main.f = u.main.f) : SameYX s t := by
  rcases popThen_cases k s with ⟨-, e⟩ | ⟨-, e⟩ | ⟨-, -, e⟩ <;> cases e.symm.trans h
  exact sameYX_of_f (hk _ _)

theorem sameYX_moveStep (s : State) (dir : Dir) : SameYX s (s.moveStep dir) := yxBits_keepYX ..

theorem sameYX_compareStep (s : State) (dir : Dir) : SameYX s (s.compareStep dir) := yxBits_keepYX ..

theorem sameYX_ioAdvance (s : State) (dir : Dir) : SameYX s (s.ioAdvance dir) := yxBits_keepYX ..

theorem sameYX_inStep (s : State) (dir : Dir) : SameYX s (s.inStep dir) :=
  SameYX.trans (t := (s.portRead s.main.c).2.writeByte s.main.hl (s.portRead s.main.c).1)
    (sameYX_of_f (congrArg Bank.f (portRead_main s s.main.c))) (sameYX_ioAdvance _ dir)

theorem sameYX_outStep (s : State) (dir : Dir) : SameYX s (s.outStep dir) :=
  (sameYX_of_f (congrArg Bank.f (portWrite_main s s.main.c (s.readByte s.main.hl)))).trans (sameYX_ioAdvance _ dir)

theorem sameYX_repeatUntil {stop : State → Bool} {body : State → State} (hb : ∀ s, SameYX s (body s)) (n : Nat)
    (s : State) : SameYX s (repeatUntil stop body n s) :=
  repeatUntil_keeps (P := SameYX s) (fun t h => h.trans (hb t)) n rfl

theorem sameYX_of_exec_bare {i : Instr} {s t : State} (hb : bareInstr i = i) (hi : writesYX i = false)
    (h : exec i s = .next t) : SameYX s t := by
  cases i with
  | pOp x i => cases i <;> cases hb
  | addAR | addAIndHl | addAN | addAIdx | addAHalf | adcAR | adcAIndHl | adcAN | adcAIdx | adcAHalf | subR | subIndHl
  | subN | subIdx | subHalf | sbcAR | sbcAIndHl | sbcAN | sbcAIdx | sbcAHalf | andR | andIndHl | andN | andIdx | andHalf
  | xorR | xorIndHl | xorN | xorIdx | xorHalf | orR | orIndHl | orN | orIdx | orHalf | cpR | cpIndHl | cpN | cpIdx
  | cpHalf | neg | exAfAf => cases hi
  | nop | exx | exDeHl | halt | di | ei | im0 | im1 | im2 | ldIA | ldRA | prefixCB | prefixDD | prefixED | prefixFD
  | ldAIndBc | ldAIndDe | ldAMem | ldHlMem | jpNn | jpHl | jpXy | jr | ldSpHl | ldSpXy | ldIndHlR | ldIdxR | ldIndHlN
  | ldIdxN | ldIndBcA | ldIndDeA | ldMemA | resIndHl | resIdx | setIndHl | setIdx | ldMemHl | ldMemXy | ldMemRp | exIndSpHl
  | unknownCb | unknownIndexCb | unknownIndexCb36 | unknownEd =>
    cases h
    rfl
  | jpCcNn | jrCc | djnz =>
    cases h
    exact sameYX_ite rfl rfl
  | ldRR r | ldRN r | ldRIndHl r | ldRIdx r | resR _ r | setR _ r =>
    cases h
    exact sameYX_of_f (Bank.set_f s.main r _)
  | ldRpNn rp | ldRpMem rp =>
    cases h
    cases rp <;> rfl
  | ldXyNn x | ldXyMem x | incXy x | decXy x | exIndSpXy x =>
    cases h
    exact sameYX_of_f (congrArg Bank.f (State.setXy_main _ x _))
  | ldHalfN x hf =>
    cases h
    exact sameYX_of_f (congrArg Bank.f (State.setHalf_main s x hf _))
  | ldRRHalf x r =>
    cases h
    cases x <;> cases r <;> rfl
  | ldAI | ldAR | addHlRp | adcHlRp | sbcHlRp | incR | decR | daa | cpl | scf | ccf | rlca | rrca | rla | rra | rlcR | rrcR
  | rlR | rrR | slaR | sraR | srlR | bitR | bitIndHl | bitIdx | incIndHl | incIdx | decIndHl | decIdx | rlcIndHl | rlcIdx
  | rrcIndHl | rrcIdx | rlIndHl | rlIdx | rrIndHl | rrIdx | slaIndHl | slaIdx | sraIndHl | sraIdx | srlIndHl | srlIdx | rrd
  | rld | addXyRp | incHalf | decHalf | inRC =>
    cases h
    exact yxBits_keepYX ..
  | incRp rp =>
    cases rp with
    | sp =>
      simp only [exec, execIncRp, incSp] at h
      split at h <;> cases h
      rfl
    | _ =>
      cases h
      rfl
  | decRp rp =>
    cases rp with
    | sp =>
      simp only [exec, execDecRp, decSp] at h
      split at h <;> cases h
      rfl
    | _ =>
      cases h
      rfl
  | pushRp2 | pushXy | callNn | rst => exact sameYX_of_pushThen h fun _ => rfl
  | callCcNn cc nn =>
    simp only [exec, execCallCcNn] at h
    split at h
    · exact sameYX_of_pushThen h fun _ => rfl
    · cases h
      rfl
  | popRp2 rp2 =>
    cases rp2 with
    | af => cases hi
    | _ => exact sameYX_of_popThen h fun _ _ => rfl
  | popXy x => exact sameYX_of_popThen h fun _ u => congrArg Bank.f (State.setXy_main u x _)
  | ret | reti | retn => exact sameYX_of_popThen h fun _ _ => rfl
  | retCc cc =>
    simp only [exec, execRetCc] at h
    split at h
    · exact sameYX_of_popThen h fun _ _ => rfl
    · cases h
      rfl
  | inAN n =>
    cases (exec_inAN n s).symm.trans h
    exact sameYX_of_f (show (s.portRead n).2.main.f = s.main.f by rw [portRead_main])
  | outNA | outCR =>
    cases h
    exact sameYX_of_f (congrArg Bank.f (portWrite_main s _ _))
  | ldi | ldd =>
    cases h
    exact sameYX_moveStep s _
  | cpi | cpd =>
    cases h
    exact sameYX_compareStep s _
  | ini | ind =>
    cases h
    exact sameYX_inStep s _
  | outi | outd =>
    cases h
    exact sameYX_outStep s _
  | ldir | lddr =>
    cases h
    exact sameYX_repeatUntil (sameYX_moveStep · _) _ s
  | cpir | cpdr =>
    cases h
    exact sameYX_repeatUntil (sameYX_compareStep · _) _ s
  | inir | indr =>
    cases h
    exact sameYX_repeatUntil (sameYX_inStep · _) _ s
  | otir | otdr =>
    cases h
    exact sameYX_repeatUntil (sameYX_outStep · _) _ s

/-- Settles O54: outside the listed instructions F is kept, or packed with its old Y and X. -/
theorem undocumentedFlagsKept : Obligations.UndocumentedFlagsKept := by
  intro i s t h hw
  obtain ⟨h, hb⟩ := exec_bareInstr h
  exact Prod.ext_iff.1 (sameYX_of_exec_bare hb hw h)

end Sys2Proof.Machine

/-! ## The step (60_exceptions.md R436) -/

namespace Sys2Proof.Machine

/-! ### What one step can do -/

/-- A whole instruction that a unit ends in is well formed. -/
theorem decodeUnit_wellFormed {tag : PrefixTag} {page : Page} {bytes : List Byte} {i : Instr} {n : Nat}
    (h : decodeUnit tag page bytes = some (i, n)) (hp : i.isPrefixByte = false) : i.WellFormed := by
  cases bytes with
  | nil => cases tag <;> cases page <;> cases h
  | cons b rest =>
    have hs : i.selects tag = none := by
      cases i with
      | prefixCB | prefixDD | prefixED | prefixFD => cases hp
      | _ => rfl
    cases page with
    | main => exact (decodeFrom_main (decodeFrom_whole h hs)).1
    | cb => exact (decodeFrom_cb (decodeFrom_whole h hs)).1
    | ed => exact (decodeFrom_ed (decodeFrom_whole h hs)).1

/-- A prefix byte does what it selects, and nothing else. -/
theorem exec_of_selects {i : Instr} {s : State} {tag : PrefixTag} {page : Page}
    (h : i.selects s.prefixTag = some (tag, page)) : exec i s = .next (s.select tag page) := by
  cases i with
  | prefixCB | prefixDD | prefixED | prefixFD =>
    cases h
    rfl
  | _ => cases h

theorem bytesFrom_length (s : State) (n : Nat) (a : Word) : (s.bytesFrom n a).length = n := by
  induction n generalizing a with
  | zero => rfl
  | succ n ih => exact congrArg (· + 1) (ih _)

/-- Decoding hangs, meets an unknown opcode, or runs one well-formed instruction; it has moved PC and nothing else. -/
theorem runUnits_cases (n : Nat) (s : State) :
    runUnits n s = .fault .prefixRun ∨
    (∃ b a pc, runUnits n s = .fault (.unknownOpcode b a ((s.setPc pc).unselect.raiseUnknown b a))) ∨
    ∃ i pc, i.WellFormed ∧ runUnits n s = exec i (s.setPc pc).unselect := by
  induction n generalizing s with
  | zero => exact .inl rfl
  | succ n ih =>
    cases hu : s.atUnknownPrimary with
    | true => exact .inr (.inl ⟨s.readByte s.pc, s.pc, s.pc + BitVec.ofNat 16 1, by simp only [runUnits, hu]; rfl⟩)
    | false =>
      obtain ⟨⟨i, len⟩, hd⟩ := decodeUnit_total s.prefixTag s.page (bytesFrom_length s 3 s.pc).ge
      cases hs : i.selects s.prefixTag with
      | none =>
        refine .inr (.inr ⟨i, s.pc + BitVec.ofNat 16 len, decodeUnit_wellFormed hd (selects_eq_none hs), ?_⟩)
        exact runUnits_whole n s i len hu hd hs
      | some sel =>
        rw [runUnits_prefix n s _ i len hu hd hs (exec_of_selects hs)]
        exact ih ((s.advance len).select sel.1 sel.2)

/-- The four branches of a step without a latched fault. -/
theorem step_cases (s : State) (h : s.fault = none) :
    (s.pending = true ∧ s.iff1 = true ∧ step s = acknowledge s.unselect) ∨
    (¬(s.pending = true ∧ s.iff1 = true) ∧ s.halted = true ∧ step s = .next s.unselect) ∨
    (ReachesDecode s ∧ step s = runUnits maxUnits s.unselect) := by
  by_cases hi : s.pending = true ∧ s.iff1 = true
  · exact .inl ⟨hi.1, hi.2, step_interrupt s h hi.1 hi.2⟩
  · have he : (s.pending && s.iff1) = false := by simpa using hi
    cases hh : s.halted with
    | true => exact .inr (.inl ⟨hi, rfl, step_halted s h he hh⟩)
    | false => exact .inr (.inr ⟨⟨h, hi, hh⟩, step_run s h he hh⟩)

/-! ### The invariant (10_state.md R39, R46; 90_conflicts.md C6) -/

theorem wellFormed_bareInstr {i : Instr} (h : i.WellFormed) : (bareInstr i).WellFormed := by
  cases i with
  | pOp x i =>
    cases i with
    | prefixCB | prefixDD | prefixED | prefixFD | pOp | ldRRHalf | unknownIndexCb | unknownEd => cases h
    | _ => rfl
  | _ => exact h

theorem inv_of_ordinary {s t : State} (h : Ordinary s t) (hs : Inv s) : Inv t where
  memory := h.memory hs.memory
  tag := h.tag.trans hs.tag
  page := h.page.trans hs.page
  fault := h.fault.trans hs.fault
  enables := fun hi => h.iff2.trans (hs.enables (h.iff1 ▸ hi))
  awake := fun ⟨hh, hp, hi⟩ => by
    have hi' : s.iff1 = true := h.iff1 ▸ hi
    rcases h.wakes hp with hp' | hw
    · exact hs.awake ⟨h.halted hh, hp', hi'⟩
    · rw [hw hi'] at hh
      cases hh

/-- An instruction that runs where no interrupt is due keeps the invariant. -/
theorem exec_keeps_inv {i : Instr} {s t : State} (hw : i.WellFormed) (hs : Inv s) (hr : ReachesDecode s)
    (h : exec i s = .next t) : Inv t := by
  obtain ⟨-, hi, hh⟩ := hr
  have hw := wellFormed_bareInstr hw
  obtain ⟨h, hb⟩ := exec_bareInstr h
  generalize bareInstr i = j at h hb hw
  by_cases hj : ordinaryInstr j = true
  · exact inv_of_ordinary (ordinary_of_exec_bare hb hj h) hs
  · cases j with
    | prefixCB | prefixDD | prefixED | prefixFD => cases hw
    | exAfAf | exx | im0 | im1 | im2 | ldIA | ldRA =>
      cases h
      exact { hs with }
    | halt =>
      cases h
      exact { hs with awake := fun h => hi h.2 }
    | di =>
      cases h
      exact { hs with enables := nofun, awake := nofun }
    | ei =>
      cases h
      exact { hs with enables := fun _ => rfl, awake := fun h => Bool.eq_false_iff.1 hh h.1 }
    | retn =>
      rcases popThen_cases (fun v t => { t.setPc v with iff1 := t.iff2 }) s with ⟨-, e⟩ | ⟨-, e⟩ | ⟨-, -, e⟩ <;>
        cases e.symm.trans h
      exact { hs with enables := id, awake := fun h => Bool.eq_false_iff.1 hh h.1 }
    | _ => exact absurd rfl hj

theorem inv_unselect {s : State} (hs : Inv s) : Inv s.unselect :=
  { hs with tag := rfl, page := rfl }

/-- Settles O49: the acknowledge clears `iff1`, a halted step changes nothing, and the instruction that a step runs keeps
the invariant. -/
theorem stepKeepsInvariant : Obligations.StepKeepsInvariant := by
  intro s t hs h
  rcases step_cases s hs.fault with ⟨-, -, e⟩ | ⟨-, -, e⟩ | ⟨hr, e⟩ <;> rw [e] at h
  · rcases acknowledge_cases s.unselect with ⟨-, e⟩ | ⟨-, e⟩ | ⟨-, -, e⟩ <;> cases e.symm.trans h
    exact { inv_unselect hs with
      memory := State.wf_pushed (s := s.unselect) hs.memory _
      enables := nofun
      awake := nofun }
  · cases h
    exact inv_unselect hs
  · rcases runUnits_cases maxUnits s.unselect with e | ⟨b, a, pc, e⟩ | ⟨i, pc, hw, e⟩
    · cases e.symm.trans h
    · cases e.symm.trans h
    · exact exec_keeps_inv hw (inv_unselect (inv_of_ordinary (.setPc _ pc) (inv_unselect hs))) hr (e.symm.trans h)

/-- Settles O50: the state after reset is halted by nothing, and its memory lists nothing. -/
theorem resetMeetsInvariant : Obligations.ResetMeetsInvariant where
  memory := State.reset_wf
  tag := rfl
  page := rfl
  fault := rfl
  enables := nofun
  awake := nofun

/-- Settles O51: the acknowledge and the instruction that a step runs complete or end in the stack fault, and decoding
ends in an instruction, in the opcode fault or in the hang. -/
theorem stepOutcomes : Obligations.StepOutcomes := by
  intro s hs
  rcases step_cases s hs.fault with ⟨-, -, e⟩ | ⟨-, -, e⟩ | ⟨-, e⟩ <;> rw [e]
  · rcases acknowledge_cases s.unselect with ⟨-, e⟩ | ⟨-, e⟩ | ⟨-, -, e⟩
    · exact .inr (.inl ⟨_, .stackOutOfRange, e, rfl, rfl, hs.memory⟩)
    · exact .inr (.inl ⟨_, .stackOutOfRange, e, rfl, rfl, Memory.wf_write hs.memory (by decide) _⟩)
    · exact .inl ⟨_, e⟩
  · exact .inl ⟨_, rfl⟩
  · rcases runUnits_cases maxUnits s.unselect with e | ⟨b, a, pc, e⟩ | ⟨i, pc, hw, e⟩ <;> rw [e]
    · exact .inr (.inr rfl)
    · exact .inr (.inl ⟨_, .unknownOpcode b a, rfl, rfl, rfl, hs.memory⟩)
    · rcases exec_outcome hw (s.unselect.setPc pc).unselect with hn | ⟨-, t, ht, hf, hh, hm⟩
      · exact .inl hn
      · exact .inr (.inl ⟨t, .stackOutOfRange, ht, hf, hh, hm hs.memory⟩)

end Sys2Proof.Machine

/-! ## The frame of each operation on the state -/

namespace Sys2Proof.Machine

/-- Two changes in a row, with the parts of both. -/
theorem OnlyChanges.andThen {parts first second : List Part} {s t u : State} (h : OnlyChanges first s t)
    (h' : OnlyChanges second t u) (hsub : ∀ p, p ∈ first ∨ p ∈ second → p ∈ parts) : OnlyChanges parts s u :=
  (h.trans h').mono fun p hp => hsub p (List.mem_append.1 hp)

namespace State

variable (s : State)

theorem setReg_onlyChanges (r : Reg8) (v : Byte) : OnlyChanges [.reg r] s (s.setReg r v) := by
  refine onlyChanges_setMain (fun q hq => Bank.set_get_ne s.main r q v ?_) fun fl _ => ?_
  · rintro rfl
    exact hq (List.mem_singleton.2 rfl)
  · rw [Bank.set_f]
    rfl

theorem setA_onlyChanges (v : Byte) : OnlyChanges [.reg .a] s (s.setA v) := s.setReg_onlyChanges .a v

/-- A write of F keeps the flags that the new F has as before. -/
theorem setF_onlyChanges {parts : List Part} {f : Byte} (h : ∀ fl, Part.flag fl ∉ parts → flagOf f fl = s.flag fl) :
    OnlyChanges parts s (s.setF f) :=
  onlyChanges_setMain (fun r _ => by cases r <;> rfl) h

theorem setSp_onlyChanges (v : Word) : OnlyChanges [.sp] s (s.setSp v) := by
  intro p hp
  cases p with
  | sp => exact absurd (by decide) hp
  | tags | peripherals => exact ⟨rfl, rfl⟩
  | _ => rfl

theorem popped_onlyChanges : OnlyChanges [.sp] s s.popped := s.setSp_onlyChanges _

/-- BC, DE and HL as pairs of registers. -/
theorem setHl_onlyChanges (v : Word) : OnlyChanges (pairParts .hl) s (s.setHl v) := by
  refine onlyChanges_setMain (fun r hr => ?_) fun _ _ => rfl
  cases r with
  | h | l => exact absurd (by decide) hr
  | _ => rfl

theorem setRp_onlyChanges (rp : Rp) (v : Word) : OnlyChanges (pairParts rp) s (s.setRp rp v) := by
  cases rp with
  | sp => exact s.setSp_onlyChanges v
  | hl => exact s.setHl_onlyChanges v
  | bc =>
    refine onlyChanges_setMain (fun r hr => ?_) fun _ _ => rfl
    cases r with
    | b | c => exact absurd (by decide) hr
    | _ => rfl
  | de =>
    refine onlyChanges_setMain (fun r hr => ?_) fun _ _ => rfl
    cases r with
    | d | e => exact absurd (by decide) hr
    | _ => rfl

theorem setRp2_onlyChanges (rp2 : Rp2) (v : Word) : OnlyChanges (stackPairParts rp2) s (s.setRp2 rp2 v) := by
  cases rp2 with
  | bc => exact s.setRp_onlyChanges .bc v
  | de => exact s.setRp_onlyChanges .de v
  | hl => exact s.setRp_onlyChanges .hl v
  | af =>
    refine onlyChanges_setAF (List.mem_cons_self ..) fun fl hfl => absurd ?_ hfl
    exact List.mem_cons_of_mem _ (flag_mem_allFlags fl)

theorem setXy_onlyChanges (x : Idx) (v : Word) : OnlyChanges (indexParts x) s (s.setXy x v) := by
  intro p hp
  cases p with
  | half y hf =>
    have hne : y ≠ x := by
      rintro rfl
      cases hf <;> simp [indexParts] at hp
    show half _ y hf = half _ y hf
    cases hf <;> simp only [half, State.setXy_xy_ne s x y v hne]
  | tags | peripherals => cases x <;> exact ⟨rfl, rfl⟩
  | _ => cases x <;> rfl

theorem setHalf_half (x : Idx) (hf : Half) (v : Byte) : (s.setHalf x hf v).half x hf = v := by
  cases hf <;> simp only [setHalf, half, State.setXy_xy, hi_pair, lo_pair]

theorem setHalf_onlyChanges (x : Idx) (hf : Half) (v : Byte) : OnlyChanges [.half x hf] s (s.setHalf x hf v) := by
  intro p hp
  have hxy (w : Word) (hp : p ∉ indexParts x) : Same s (s.setXy x w) p := s.setXy_onlyChanges x w p hp
  cases p with
  | half y g =>
    by_cases hy : y = x
    · subst hy
      show half _ y g = half _ y g
      by_cases hg : g = hf
      · exact absurd (hg ▸ List.mem_singleton_self _) hp
      · cases hf <;> cases g <;> simp_all [setHalf, half]
    · cases hf <;> exact hxy _ (by simp [indexParts, hy])
  | _ => cases hf <;> exact hxy _ (by simp [indexParts])

theorem setRegX_regX (x : Idx) (r : RegX) (v : Byte) : (s.setRegX x r v).regX x r = v := by
  cases r with
  | xyh => exact s.setHalf_half x .high v
  | xyl => exact s.setHalf_half x .low v
  | _ => rfl

theorem setRegX_onlyChanges (x : Idx) (r : RegX) (v : Byte) : OnlyChanges [regXPart x r] s (s.setRegX x r v) := by
  cases r with
  | xyh => exact s.setHalf_onlyChanges x .high v
  | xyl => exact s.setHalf_onlyChanges x .low v
  | _ => exact s.setReg_onlyChanges _ v

/-- A change of memory alone. -/
theorem onlyChanges_of_mem {parts : List Part} {m : Memory}
    (h : ∀ a : Word, Part.byte a ∉ parts → Memory.read m a.toNat = s.readByte a) :
    OnlyChanges parts s { s with mem := m } := by
  intro p hp
  cases p with
  | byte a => exact h a hp
  | tags | peripherals => exact ⟨rfl, rfl⟩
  | _ => rfl

theorem writeByte_onlyChanges (a : Word) (v : Byte) : OnlyChanges [.byte a] s (s.writeByte a v) := by
  refine s.onlyChanges_of_mem fun b hb => s.readByte_writeByte_ne v ?_
  rintro rfl
  exact hb (List.mem_singleton.2 rfl)

theorem writeWord_onlyChanges (a v : Word) : OnlyChanges [.byte a, .byte (a + 1)] s (s.writeWord a v) :=
  (s.writeByte_onlyChanges a (lo v)).trans (writeByte_onlyChanges _ (a + 1) (hi v))

theorem pushed_onlyChanges (v : Word) : OnlyChanges (pushParts s) s (s.pushed v) := by
  refine OnlyChanges.andThen (t := s.setSp (s.sp - 1 - 1)) (s.setSp_onlyChanges _)
    (onlyChanges_of_mem (s := s.setSp (s.sp - 1 - 1)) (parts := [.byte (s.sp - 1), .byte (s.sp - 2)]) fun a ha => ?_) ?_
  · have h := s.pushed_readByte v a
    rw [if_neg (by rintro rfl; simp at ha), if_neg (by rintro rfl; simp at ha)] at h
    exact h
  · simp [pushParts]

theorem record_onlyChanges (e : Event) : OnlyChanges [.events] s (s.record e) := by
  intro p hp
  cases p with
  | events => exact absurd (by decide) hp
  | tags | peripherals => exact ⟨rfl, rfl⟩
  | _ => rfl

theorem unselect_onlyChanges : OnlyChanges [.tags] s s.unselect := by
  intro p hp
  cases p with
  | tags => exact absurd (by decide) hp
  | peripherals => exact ⟨rfl, rfl⟩
  | _ => rfl

theorem raiseStack_onlyChanges : OnlyChanges [.halted, .fault] s s.raiseStack := by
  intro p hp
  cases p with
  | halted | fault => exact absurd (by decide) hp
  | tags | peripherals => exact ⟨rfl, rfl⟩
  | _ => rfl

end State

end Sys2Proof.Machine

/-! ## Memory, addresses and loads (20_memory.md, 40_load8.md, 41_load16_stack_exchange.md) -/

namespace Sys2Proof.Machine

/-! ### Bytes, words, addresses -/

theorem toNat_sext (d : Byte) : ((sext d).toNat : Int) = d.toInt % 65536 := by
  have h : 0 ≤ d.toInt % 65536 := Int.emod_nonneg _ (by decide)
  rw [sext, BitVec.signExtend, BitVec.toNat_ofInt]
  exact Int.toNat_of_nonneg h

/-- A signed byte added to a word, modulo 65536 (R12, R97). -/
theorem toNat_add_sext (a : Word) (d : Byte) : ((a + sext d).toNat : Int) = ((a.toNat : Int) + d.toInt) % 65536 := by
  have h := toNat_sext d
  rw [BitVec.toNat_add]
  omega

theorem readByte_writeWord_low (s : State) (a v : Word) : (s.writeWord a v).readByte a = lo v := by
  rw [State.readByte_writeWord, if_neg (Word.succ_ne a).symm, if_pos rfl]

theorem readByte_writeWord_high (s : State) (a v : Word) : (s.writeWord a v).readByte (a + 1) = hi v := by
  rw [State.readByte_writeWord, if_pos rfl]

theorem xy_toNat (s : State) (x : Idx) :
    (s.xy x).toNat = (s.half x .high).toNat * 256 + (s.half x .low).toNat := by
  simp only [State.half, hi_toNat, lo_toNat]
  omega

/-- Settles O4: reads after writes, and words as their two bytes. -/
theorem memoryAndAddresses : Obligations.MemoryAndAddresses := by
  refine ⟨fun s a b v n => ⟨s.readByte_writeByte a b n, readByte_writeWord_low s a v, readByte_writeWord_high s a v,
    s.readWord_writeWord a v, fun hb hb' => ?_⟩, fun s x d => ⟨toNat_add_sext _ d, pair_toNat _ _, pair_toNat _ _,
    pair_toNat _ _, xy_toNat s x⟩⟩
  rw [State.readByte_writeWord, if_neg hb', if_neg hb]

/-! ### `load` (R63) -/

theorem word_add_succ (a : Word) (k : Nat) : a + BitVec.ofNat 16 (k + 1) = a + 1 + BitVec.ofNat 16 k := by
  rw [Nat.add_comm, BitVec.ofNat_add, BitVec.add_assoc]
  rfl

theorem word_add_injective {a : Word} {j k : Nat} (hj : j < 65536) (hk : k < 65536)
    (h : a + BitVec.ofNat 16 j = a + BitVec.ofNat 16 k) : j = k := by
  have h' := congrArg BitVec.toNat ((BitVec.add_right_inj a).1 h)
  rwa [BitVec.toNat_ofNat, BitVec.toNat_ofNat, Nat.mod_eq_of_lt hj, Nat.mod_eq_of_lt hk] at h'

/-- Bytes outside the stored range are kept. -/
theorem readByte_storeBytes_outside (s : State) (base a : Word) (bytes : List Byte)
    (h : ∀ k < bytes.length, a ≠ base + BitVec.ofNat 16 k) : (s.storeBytes base bytes).readByte a = s.readByte a := by
  induction bytes generalizing s base with
  | nil => rfl
  | cons b rest ih =>
    rw [State.storeBytes, ih _ _ fun k hk => word_add_succ base k ▸ h (k + 1) (Nat.succ_lt_succ hk)]
    exact s.readByte_writeByte_ne b (by simpa using h 0 (Nat.succ_pos _))

theorem readByte_storeBytes (s : State) (base : Word) (bytes : List Byte) (hlen : bytes.length ≤ 65536) (k : Nat)
    (hk : k < bytes.length) : (s.storeBytes base bytes).readByte (base + BitVec.ofNat 16 k) = bytes[k] := by
  induction bytes generalizing s base k with
  | nil => cases hk
  | cons b rest ih =>
    simp only [List.length_cons] at hlen hk
    cases k with
    | zero =>
      rw [State.storeBytes, readByte_storeBytes_outside _ _ _ _ fun j hj h => ?_]
      · simp
      · rw [← word_add_succ] at h
        exact absurd (word_add_injective (by omega) (by omega) h) (by omega)
    | succ k =>
      rw [State.storeBytes, word_add_succ]
      exact ih _ _ (by omega) k (by omega)

theorem storeBytes_append (s : State) (base : Word) (bytes more : List Byte) :
    s.storeBytes base (bytes ++ more) =
      (s.storeBytes base bytes).storeBytes (base + BitVec.ofNat 16 bytes.length) more := by
  induction bytes generalizing s base with
  | nil => simp [State.storeBytes]
  | cons b rest ih =>
    rw [List.length_cons, word_add_succ]
    exact ih _ _

theorem storeBytes_onlyChanges (s : State) (base : Word) (bytes : List Byte) :
    OnlyChanges ((List.range bytes.length).map fun k => .byte (base + BitVec.ofNat 16 k)) s
      (s.storeBytes base bytes) := by
  rw [s.storeBytes_eq base bytes]
  refine s.onlyChanges_of_mem fun a ha => readByte_storeBytes_outside s base a bytes fun k hk h => ha ?_
  exact List.mem_map.2 ⟨k, List.mem_range.2 hk, congrArg Part.byte h.symm⟩

/-- Settles O5: by induction on the list, an address that wraps round to the first one being past 65536 bytes. -/
theorem loadStoresInOrder : Obligations.LoadStoresInOrder := fun s base bytes more =>
  ⟨readByte_storeBytes s base bytes, storeBytes_onlyChanges s base bytes, storeBytes_append s base bytes more⟩

/-! ### 8-bit loads and stores -/

/-- An instruction that only writes one register. -/
theorem does_of_exec_setReg {i : Instr} {r : Reg8} (v : State → Byte) (he : ∀ s, exec i s = .next (s.setReg r (v s))) :
    Does i (fun _ => [.reg r]) fun s t => t.reg r = v s :=
  Does.of_next _ he (fun s => s.setReg_reg r (v s)) fun s => s.setReg_onlyChanges r (v s)

/-- An instruction that only writes one byte of memory. -/
theorem does_of_exec_writeByte {i : Instr} (a : State → Word) (v : State → Byte)
    (he : ∀ s, exec i s = .next (s.writeByte (a s) (v s))) :
    Does i (fun s => [.byte (a s)]) fun s t => t.readByte (a s) = v s :=
  Does.of_next _ he (fun s => s.readByte_writeByte_same (a s) (v s)) fun s => s.writeByte_onlyChanges (a s) (v s)

/-- Settles O6: each of the loads is one write of a register or of an index half. -/
theorem loadRegister : Obligations.LoadRegister := by
  refine ⟨?ldRR, ?ldRN, ?ldRIndHl, ?ldRIdx, ?ldAIndBc, ?ldAIndDe, ?ldAMem, ?ldHalfN, ?ldRRHalf⟩
  case ldRR => exact fun r r' => does_of_exec_setReg (State.reg · r') fun _ => rfl
  case ldRN => exact fun r n => does_of_exec_setReg (fun _ => n) fun _ => rfl
  case ldRIndHl => exact fun r => does_of_exec_setReg (fun s => s.readByte s.main.hl) fun _ => rfl
  case ldRIdx => exact fun r x d => does_of_exec_setReg (fun s => s.readByte (s.indexed x d)) fun _ => rfl
  case ldAIndBc => exact does_of_exec_setReg (r := .a) (fun s => s.readByte s.main.bc) fun _ => rfl
  case ldAIndDe => exact does_of_exec_setReg (r := .a) (fun s => s.readByte s.main.de) fun _ => rfl
  case ldAMem => exact fun nn => does_of_exec_setReg (r := .a) (State.readByte · nn) fun _ => rfl
  case ldHalfN =>
    exact fun x hf n => Does.of_next _ (fun _ => rfl) (fun s => s.setHalf_half x hf n) fun s =>
      s.setHalf_onlyChanges x hf n
  case ldRRHalf =>
    exact fun x r r' => Does.of_next _ (fun _ => rfl) (fun s => s.setRegX_regX x r (s.regX x r')) fun s =>
      s.setRegX_onlyChanges x r (s.regX x r')

/-- Settles O7: each of the stores is one write of a byte. -/
theorem storeByte : Obligations.StoreByte := by
  refine ⟨?ldIndHlR, ?ldIdxR, ?ldIndHlN, ?ldIdxN, ?ldIndBcA, ?ldIndDeA, ?ldMemA⟩
  case ldIndHlR => exact fun r => does_of_exec_writeByte _ (State.reg · r) fun _ => rfl
  case ldIdxR => exact fun x d r => does_of_exec_writeByte (State.indexed · x d) (State.reg · r) fun _ => rfl
  case ldIndHlN => exact fun n => does_of_exec_writeByte _ (fun _ => n) fun _ => rfl
  case ldIdxN => exact fun x d n => does_of_exec_writeByte (State.indexed · x d) (fun _ => n) fun _ => rfl
  case ldIndBcA => exact does_of_exec_writeByte _ _ fun _ => rfl
  case ldIndDeA => exact does_of_exec_writeByte _ _ fun _ => rfl
  case ldMemA => exact fun nn => does_of_exec_writeByte (fun _ => nn) _ fun _ => rfl

/-- A sub-opcode of the ED page that is the whole row. -/
theorem decodesTo_of_decodeEd {s : Byte} {i : Instr} (hd : ∀ rest, decodeEd s rest = some (i, 1))
    (hs : ∀ tag, i.selects tag = none) : DecodesTo [0xED, s] i :=
  fun rest => decode_ed_cons (hd rest) hs

/-- Settles O8: each writes the one register, as the words on the ED page say. -/
theorem loadSpecialRegisters : Obligations.LoadSpecialRegisters := by
  refine ⟨decodesTo_of_decodeEd (fun _ => rfl) fun _ => rfl, ?ldIA, decodesTo_of_decodeEd (fun _ => rfl) fun _ => rfl,
    ?ldRA⟩
  case ldIA =>
    refine Does.of_next _ (fun _ => rfl) (fun _ => rfl) fun s p hp => ?_
    cases p with
    | regI => exact absurd (by decide) hp
    | tags | peripherals => exact ⟨rfl, rfl⟩
    | _ => rfl
  case ldRA =>
    refine Does.of_next _ (fun _ => rfl) (fun _ => rfl) fun s p hp => ?_
    cases p with
    | regR => exact absurd (by decide) hp
    | tags | peripherals => exact ⟨rfl, rfl⟩
    | _ => rfl

/-! ### 16-bit loads and stores -/

/-- An instruction that only writes one word of memory. -/
theorem does_of_exec_writeWord {i : Instr} (nn : Word) (v : State → Word)
    (he : ∀ s, exec i s = .next (s.writeWord nn (v s))) :
    Does i (fun _ => [.byte nn, .byte (nn + 1)]) fun s t => t.readByte nn = lo (v s) ∧ t.readByte (nn + 1) = hi (v s) :=
  Does.of_next _ he (fun s => ⟨readByte_writeWord_low s nn (v s), readByte_writeWord_high s nn (v s)⟩) fun s =>
    s.writeWord_onlyChanges nn (v s)

theorem lo_hl (s : State) : lo s.main.hl = s.main.l := lo_pair _ _

theorem hi_hl (s : State) : hi s.main.hl = s.main.h := hi_pair _ _

theorem half_setXy (s : State) (x : Idx) (v : Word) : (s.setXy x v).half x .low = lo v ∧ (s.setXy x v).half x .high = hi v := by
  simp only [State.half, State.setXy_xy, and_self]

/-- Settles O10: one write of a pair, or of a word of memory. -/
theorem loadAndStorePair : Obligations.LoadAndStorePair := by
  refine ⟨?ldRpNn, ?ldXyNn, ?ldHlMem, ?ldXyMem, ?ldRpMem, ?ldSpHl, ?ldSpXy, ?ldMemHl, ?ldMemXy, ?ldMemRp⟩
  case ldRpNn =>
    exact fun rp nn => Does.of_next _ (fun _ => rfl) (fun s => s.setRp_rp rp nn) fun s => s.setRp_onlyChanges rp nn
  case ldXyNn =>
    exact fun x nn => Does.of_next _ (fun _ => rfl) (fun s => s.setXy_xy x nn) fun s => s.setXy_onlyChanges x nn
  case ldHlMem =>
    exact fun nn => Does.of_next _ (fun _ => rfl) (fun s => ⟨lo_pair _ _, hi_pair _ _⟩) fun s => s.setHl_onlyChanges _
  case ldXyMem =>
    refine fun x nn => Does.of_next _ (fun _ => rfl) (fun s => ?_) fun s => s.setXy_onlyChanges x _
    have h := half_setXy s x (s.readWord nn)
    rwa [State.readWord, lo_pair, hi_pair] at h
  case ldRpMem =>
    exact fun rp nn => Does.of_next _ (fun _ => rfl) (fun s => s.setRp_rp rp _) fun s => s.setRp_onlyChanges rp _
  case ldSpHl => exact Does.of_next _ (fun _ => rfl) (fun _ => rfl) fun s => s.setSp_onlyChanges _
  case ldSpXy => exact fun x => Does.of_next _ (fun _ => rfl) (fun _ => rfl) fun s => s.setSp_onlyChanges _
  case ldMemHl =>
    have h (nn : Word) := does_of_exec_writeWord (i := .ldMemHl nn) nn (fun s => s.main.hl) fun _ => rfl
    simpa only [lo_hl, hi_hl] using h
  case ldMemXy => exact fun x nn => does_of_exec_writeWord nn (State.xy · x) fun _ => rfl
  case ldMemRp => exact fun rp nn => does_of_exec_writeWord nn (State.rp · rp) fun _ => rfl

end Sys2Proof.Machine

/-! ## The stack, jumps, calls and returns (41_load16_stack_exchange.md, 45_control_flow.md) -/

namespace Sys2Proof.Machine

/-! ### Statements under a condition -/

/-- An instruction whose meaning, where `pre` holds, is `.next (f s)`. -/
theorem DoesWhen.of_next {pre : State → Prop} {i : Instr} {changed : State → List Part} {post : State → State → Prop}
    (f : State → State) (he : ∀ s, pre s → exec i s = .next (f s)) (hp : ∀ s, pre s → post s (f s))
    (hf : ∀ s, OnlyChanges (changed s) s (f s)) : DoesWhen pre i changed post :=
  fun s hs => ⟨f s, he s hs, hp s hs, hf s⟩

theorem DoesWhen.mono {pre pre' : State → Prop} {i : Instr} {changed changed' : State → List Part}
    {post post' : State → State → Prop} (h : DoesWhen pre i changed post) (hpre : ∀ s, pre' s → pre s)
    (hchanged : ∀ s, ∀ p ∈ changed s, p ∈ changed' s) (hpost : ∀ s t, post s t → post' s t) :
    DoesWhen pre' i changed' post' := by
  intro s hs
  obtain ⟨t, he, hp, hf⟩ := h s (hpre s hs)
  exact ⟨t, he, hpost s t hp, hf.mono (hchanged s)⟩

/-- The condition is superfluous, or a part of a longer one. -/
theorem DoesWhen.of_pre {pre pre' : State → Prop} {i : Instr} {changed : State → List Part} {post : State → State → Prop}
    (h : DoesWhen pre i changed post) (hpre : ∀ s, pre' s → pre s) : DoesWhen pre' i changed post :=
  h.mono hpre (fun _ _ hp => hp) fun _ _ hp => hp

/-- A condition that always holds is left out. -/
theorem DoesWhen.of_true {P : State → Prop} {i : Instr} {changed : State → List Part} {post : State → State → Prop}
    (h : DoesWhen (fun s => True ∧ P s) i changed post) : DoesWhen P i changed post :=
  h.of_pre fun _ hp => ⟨trivial, hp⟩

/-- An instruction that does nothing where `pre` holds. -/
theorem doesWhen_nothing {pre : State → Prop} {i : Instr} (he : ∀ s, pre s → exec i s = .next s) :
    DoesWhen pre i (fun _ => []) fun _ _ => True :=
  .of_next id he (fun _ _ => trivial) fun s => .refl _ s

/-! ### Pushes and pops where there is room -/

theorem RoomToPush.ne {s : State} (h : RoomToPush s) : s.sp ≠ 0 ∧ s.sp ≠ 1 := by
  constructor <;> intro e <;> simp [RoomToPush, e] at h

theorem RoomToPop.ne {s : State} (h : RoomToPop s) : s.sp ≠ 0xFFFF ∧ s.sp ≠ 0xFFFE := by
  constructor <;> intro e <;> simp [RoomToPop, e] at h

theorem pushes_pushed (s : State) (v : Word) : Pushes v s (s.pushed v) := by
  have hne : s.sp - 1 ≠ s.sp - 2 := by
    intro h
    bv_omega
  refine ⟨s.pushed_sp v, ?_, ?_⟩
  · rw [s.pushed_readByte, if_neg hne, if_pos rfl]
  · rw [s.pushed_readByte, if_pos rfl]

theorem popped_sp (s : State) : s.popped.sp = s.sp + 2 := by
  show s.sp + 1 + 1 = s.sp + 2
  rw [BitVec.add_assoc]
  rfl

/-- An instruction that pushes a word. -/
theorem doesWhen_of_pushThen {i : Instr} {pre : State → Prop} (v : State → Word)
    (he : ∀ s, pre s → exec i s = pushThen (v s) id s) :
    DoesWhen (fun s => pre s ∧ RoomToPush s) i pushParts fun s t => Pushes (v s) s t :=
  .of_next (fun s => s.pushed (v s)) (fun s hs => (he s hs.1).trans (pushThen_next _ _ s hs.2.ne.1 hs.2.ne.2))
    (fun s _ => pushes_pushed s (v s)) fun s => s.pushed_onlyChanges (v s)

/-- An instruction that pushes PC and goes somewhere. -/
theorem doesWhen_of_call {i : Instr} {pre : State → Prop} (target : Word)
    (he : ∀ s, pre s → exec i s = pushThen s.pc (fun t => t.setPc target) s) :
    DoesWhen (fun s => pre s ∧ RoomToPush s) i (fun s => .pc :: pushParts s) fun s t =>
      t.pc = target ∧ Pushes s.pc s t :=
  .of_next (fun s => (s.pushed s.pc).setPc target)
    (fun s hs => (he s hs.1).trans (pushThen_next _ _ s hs.2.ne.1 hs.2.ne.2))
    (fun s _ => ⟨rfl, pushes_pushed s s.pc⟩) fun s =>
      (s.pushed_onlyChanges s.pc).andThen ((s.pushed s.pc).setPc_onlyChanges target) fun p hp => by
        simpa [or_comm] using hp

/-- An instruction that pops a word and puts it somewhere. -/
theorem doesWhen_of_popThen {i : Instr} {pre : State → Prop} {k : Word → State → State} {parts : List Part}
    {post : State → State → Prop} (he : ∀ s, pre s → exec i s = popThen k s)
    (hk : ∀ v t, OnlyChanges parts t (k v t)) (hsp : ∀ v t, (k v t).sp = t.sp)
    (hpost : ∀ s, post s (k (topWord s) s.popped)) :
    DoesWhen (fun s => pre s ∧ RoomToPop s) i (fun _ => .sp :: parts) fun s t => t.sp = s.sp + 2 ∧ post s t :=
  .of_next (fun s => k (topWord s) s.popped)
    (fun s hs => (he s hs.1).trans (popThen_next _ s hs.2.ne.1 hs.2.ne.2))
    (fun s _ => ⟨(hsp _ _).trans (popped_sp s), hpost s⟩) fun s => s.popped_onlyChanges.trans (hk _ _)

/-- An instruction that pops PC. -/
theorem doesWhen_of_ret {i : Instr} {pre : State → Prop}
    (he : ∀ s, pre s → exec i s = popThen (fun v t => t.setPc v) s) :
    DoesWhen (fun s => pre s ∧ RoomToPop s) i (fun _ => [.pc, .sp]) fun s t => t.pc = topWord s ∧ t.sp = s.sp + 2 :=
  (doesWhen_of_popThen he (fun v t => t.setPc_onlyChanges v) (fun _ _ => rfl) (post := fun s t => t.pc = topWord s)
    fun _ => rfl).mono (fun _ hs => hs) (fun _ p hp => by simpa [or_comm] using hp) fun _ _ hp => hp.symm

theorem setRp2_rp2 (s : State) (q : Rp2) (v : Word) : (s.setRp2 q v).rp2 q = v := by
  cases q <;> exact pair_hi_lo v

/-- Settles O11: a push writes two bytes below SP, and a pop reads two and writes a pair. -/
theorem pushAndPop : Obligations.PushAndPop := by
  refine ⟨fun q => ?pushRp2, fun x => ?pushXy, fun q => ?popRp2, fun x => ?popXy⟩
  case pushRp2 => exact (doesWhen_of_pushThen (State.rp2 · q) fun _ _ => rfl).of_true
  case pushXy => exact (doesWhen_of_pushThen (State.xy · x) fun _ _ => rfl).of_true
  case popRp2 =>
    exact (doesWhen_of_popThen (fun _ _ => rfl) (fun v t => t.setRp2_onlyChanges q v) (fun v t => t.setRp2_sp q v)
      fun s => setRp2_rp2 s.popped q (topWord s)).of_true
  case popXy =>
    exact (doesWhen_of_popThen (fun _ _ => rfl) (fun v t => t.setXy_onlyChanges x v) (fun v t => t.setXy_sp x v)
      fun s => s.popped.setXy_xy x (topWord s)).of_true

/-! ### A push and a pop (R179) -/

/-- What is pushed is popped, and SP is back, whatever else changed between. -/
theorem popThen_of_pushed {s t : State} {v : Word} (hr : RoomToPush s) (hsp : t.sp = s.sp - 2)
    (hmem : t.mem = (s.pushed v).mem) (k : Word → State → State) : popThen k t = .next (k v (t.setSp s.sp)) := by
  have hroom : t.sp ≠ 0xFFFF ∧ t.sp ≠ 0xFFFE := by
    rw [hsp]
    constructor <;> intro e <;> bv_omega
  have htop : t.readWord t.sp = v := by
    obtain ⟨-, hhi, hlo⟩ := pushes_pushed s v
    have hone : s.sp - 2 + 1 = s.sp - 1 := by bv_omega
    rw [State.readWord, State.readByte_congr hmem, State.readByte_congr hmem, hsp, hone, hhi, hlo, pair_hi_lo]
  have hback : t.popped = t.setSp s.sp := by
    have htwo : t.sp + 1 + 1 = s.sp := by
      rw [hsp]
      bv_omega
    rw [State.popped, htwo]
  rw [popThen_next _ t hroom.1 hroom.2, htop, hback]

theorem setRp2_self (s : State) (q : Rp2) : s.setRp2 q (s.rp2 q) = s := by
  cases q <;> simp [State.setRp2, State.rp2, Bank.setBc, Bank.setDe, Bank.setHl, Bank.setAf, Bank.bc, Bank.de, Bank.hl,
    Bank.af, State.setMain]

theorem setXy_self (s : State) (x : Idx) : s.setXy x (s.xy x) = s := by cases x <;> rfl

/-- What a push leaves when SP is back: the two bytes below it. -/
theorem onlyChanges_memory_of_pushed (s : State) (v : Word) :
    OnlyChanges [.byte (s.sp - 1), .byte (s.sp - 2)] s { s with mem := (s.pushed v).mem } := by
  refine s.onlyChanges_of_mem fun a ha => (s.pushed_readByte v a).trans ?_
  simp only [List.mem_cons, Part.byte.injEq, List.not_mem_nil, or_false, not_or] at ha
  rw [if_neg ha.2, if_neg ha.1]

theorem setSp_pushed (s : State) (v : Word) : (s.pushed v).setSp s.sp = { s with mem := (s.pushed v).mem } := by
  simp only [State.pushed, State.setSp, State.writeByte]

theorem setPc_setSp_setPc (t : State) (a b c : Word) : ((t.setPc a).setSp b).setPc c = (t.setSp b).setPc c := rfl

theorem setPc_setSp_pushed (s : State) (v target : Word) :
    (((s.pushed v).setPc target).setSp s.sp).setPc s.pc = { s with mem := (s.pushed v).mem } := by
  rw [setPc_setSp_setPc, setSp_pushed]
  generalize (s.pushed v).mem = m
  rfl

/-- A pushing instruction, and a popping one that puts the word back where the push took it from. -/
theorem roundTrip {i j : Instr} {s : State} {v : Word} {k : State → State} {k' : Word → State → State}
    (hr : RoomToPush s) (hi : exec i s = pushThen v k s) (hj : ∀ t, exec j t = popThen k' t)
    (hsp : (k (s.pushed v)).sp = s.sp - 2) (hmem : (k (s.pushed v)).mem = (s.pushed v).mem)
    (hk : k' v ((k (s.pushed v)).setSp s.sp) = { s with mem := (s.pushed v).mem }) :
    ∃ t u, exec i s = .next t ∧ exec j t = .next u ∧ OnlyChanges [.byte (s.sp - 1), .byte (s.sp - 2)] s u :=
  ⟨_, _, hi.trans (pushThen_next v k s hr.ne.1 hr.ne.2), (hj _).trans (popThen_of_pushed hr hsp hmem k'),
    hk ▸ onlyChanges_memory_of_pushed s v⟩

/-- The same where PC is pushed and PC is popped. -/
theorem roundTrip_pc {i j : Instr} {s : State} {target : Word} (hr : RoomToPush s)
    (hi : exec i s = pushThen s.pc (fun t => t.setPc target) s) (hj : ∀ t, exec j t = popThen (fun v t => t.setPc v) t) :
    ∃ t u, exec i s = .next t ∧ exec j t = .next u ∧ OnlyChanges [.byte (s.sp - 1), .byte (s.sp - 2)] s u :=
  roundTrip hr hi hj (s.pushed_sp s.pc) rfl (setPc_setSp_pushed s s.pc target)

/-- Settles O12: the pop reads the word the push wrote, and SP is back. -/
theorem stackRoundTrips : Obligations.StackRoundTrips := by
  refine ⟨fun q s hr => ?rp2, fun x s hr => ?xy, fun q x s hr => ?moved, fun nn s hr => ?call, fun n s hr => ?rst⟩
  case rp2 =>
    refine roundTrip (k := id) hr rfl (fun _ => rfl) (s.pushed_sp _) rfl ?_
    exact (congrArg (State.setRp2 · q (s.rp2 q)) (setSp_pushed s _)).trans (setRp2_self { s with mem := _ } q)
  case xy =>
    refine roundTrip (k := id) hr rfl (fun _ => rfl) (s.pushed_sp _) rfl ?_
    exact (congrArg (State.setXy · x (s.xy x)) (setSp_pushed s _)).trans (setXy_self { s with mem := _ } x)
  case moved =>
    refine ⟨s.pushed (s.rp2 q), ((s.pushed (s.rp2 q)).setSp s.sp).setXy x (s.rp2 q), ?_, ?_, State.setXy_xy _ x _,
      State.setXy_sp _ x _⟩
    · exact pushThen_next (s.rp2 q) id s hr.ne.1 hr.ne.2
    · exact popThen_of_pushed hr (s.pushed_sp _) rfl fun v t => t.setXy x v
  case call => exact roundTrip_pc hr rfl fun _ => rfl
  case rst => exact roundTrip_pc hr rfl fun _ => rfl

/-! ### The faults (R431 to R433) -/

/-- The condition of a conditional instruction is the one the model evaluates. -/
theorem condHolds_iff (s : State) (cc : Cond) : condHolds s.main.f cc = true ↔ CondTrue s cc := by
  cases cc <;> simp [condHolds, CondTrue, State.flag]

theorem pushThen_zero (v : Word) (k : State → State) (s : State) (h : s.sp = 0) :
    pushThen v k s = .fault (.stackOutOfRange s.raiseStack) := by
  simp only [pushThen, s.push16_zero v h]

theorem pushThen_one (v : Word) (k : State → State) (s : State) (h : s.sp = 1) :
    pushThen v k s = .fault (.stackOutOfRange ((s.setSp 0).writeByte 0 (hi v)).raiseStack) := by
  simp only [pushThen, s.push16_one v h]

theorem pushFaultsWhen_of_pushThen {pre : State → Prop} {i : Instr} {v : State → Word} {k : State → State}
    (he : ∀ s, pre s → exec i s = pushThen (v s) k s) : PushFaultsWhen pre i v := by
  constructor
  · rintro s ⟨hp, hsp⟩
    exact ⟨s.raiseStack, (he s hp).trans (pushThen_zero _ k s hsp), rfl, rfl, trivial, s.raiseStack_onlyChanges⟩
  · rintro s ⟨hp, hsp⟩
    refine ⟨((s.setSp 0).writeByte 0 (hi (v s))).raiseStack, (he s hp).trans (pushThen_one _ k s hsp), rfl, rfl,
      ⟨rfl, ?_⟩, ?_⟩
    · exact (s.setSp 0).readByte_writeByte_same 0 (hi (v s))
    · refine (((s.setSp_onlyChanges 0).trans ((s.setSp 0).writeByte_onlyChanges 0 (hi (v s)))).andThen
        (State.raiseStack_onlyChanges _) fun p hp => ?_)
      simpa [or_comm, or_left_comm, or_assoc] using hp

theorem popFaultsWhen_of_popThen {pre : State → Prop} {i : Instr} {k : Word → State → State}
    (he : ∀ s, pre s → exec i s = popThen k s) : PopFaultsWhen pre i := by
  constructor
  · rintro s ⟨hp, hsp⟩
    refine ⟨s.raiseStack, ?_, rfl, rfl, trivial, s.raiseStack_onlyChanges⟩
    simp only [he s hp, popThen, s.pop16_top hsp]
  · rintro s ⟨hp, hsp⟩
    refine ⟨(s.setSp 0xFFFF).raiseStack, ?_, rfl, rfl, rfl, ?_⟩
    · simp only [he s hp, popThen, s.pop16_below_top hsp]
    · refine (s.setSp_onlyChanges 0xFFFF).andThen (State.raiseStack_onlyChanges _) fun p hp => ?_
      simpa [or_comm, or_left_comm, or_assoc] using hp

/-- Settles O13: each of them is `pushThen` or `popThen` where it is taken, and those fault at the ends of SP's range. -/
theorem stackFaults : Obligations.StackFaults := by
  refine ⟨?pushRp2, ?pushXy, ?callNn, ?callCcNn, ?rst, ?popRp2, ?popXy, ?ret, ?retCc, ?reti, ?retn⟩
  case pushRp2 => exact fun q => pushFaultsWhen_of_pushThen fun _ _ => rfl
  case pushXy => exact fun x => pushFaultsWhen_of_pushThen fun _ _ => rfl
  case callNn => exact fun nn => pushFaultsWhen_of_pushThen fun _ _ => rfl
  case callCcNn => exact fun cc nn => pushFaultsWhen_of_pushThen fun s h => if_pos ((condHolds_iff s cc).2 h)
  case rst => exact fun n => pushFaultsWhen_of_pushThen fun _ _ => rfl
  case popRp2 => exact fun q => popFaultsWhen_of_popThen fun _ _ => rfl
  case popXy => exact fun x => popFaultsWhen_of_popThen fun _ _ => rfl
  case ret => exact popFaultsWhen_of_popThen fun _ _ => rfl
  case retCc => exact fun cc => popFaultsWhen_of_popThen fun s h => if_pos ((condHolds_iff s cc).2 h)
  case reti => exact popFaultsWhen_of_popThen fun _ _ => rfl
  case retn => exact popFaultsWhen_of_popThen fun _ _ => rfl

/-! ### The exchange with the top of the stack (R178) -/

/-- Settles O15: one write of the word at SP, and one of the pair. -/
theorem exchangeStackTop : Obligations.ExchangeStackTop := by
  constructor
  · refine Does.of_next _ (fun _ => rfl) (fun s => ⟨lo_pair _ _, hi_pair _ _, ?_, ?_⟩) fun s => ?_
    · exact (readByte_writeWord_low s s.sp s.main.hl).trans (lo_hl s)
    · exact (readByte_writeWord_high s s.sp s.main.hl).trans (hi_hl s)
    · exact (s.writeWord_onlyChanges s.sp s.main.hl).andThen (State.setHl_onlyChanges _ _) fun p hp => by
        simpa [or_comm] using hp
  · intro x
    refine Does.of_next _ (fun _ => rfl) (fun s => ?_) fun s => ?_
    · have h := half_setXy (s.replaceTop (s.xy x)) x (s.readWord s.sp)
      rw [State.readWord, lo_pair, hi_pair] at h
      have hmem := State.setXy_mem (s.replaceTop (s.xy x)) x (s.readWord s.sp)
      refine ⟨h.1, h.2, ?_, ?_⟩
      · exact (State.readByte_congr hmem _).trans (readByte_writeWord_low s s.sp (s.xy x))
      · exact (State.readByte_congr hmem _).trans (readByte_writeWord_high s s.sp (s.xy x))
    · exact (s.writeWord_onlyChanges s.sp (s.xy x)).andThen (State.setXy_onlyChanges _ x _) fun p hp => by
        simpa [or_comm] using hp

/-! ### Jumps (R280 to R286) -/

theorem jrCond_eq (cc : CondJr) : condJrCond cc = jrCond cc := by cases cc <;> rfl

/-- Settles O32: each of them, where it is taken, is one write of PC; `DJNZ` counts B down first. -/
theorem conditionalAndRelativeJumps : Obligations.ConditionalAndRelativeJumps := by
  refine ⟨fun cc nn => ?jpTaken, fun cc nn => ?jpNot, fun e => ?jr, fun cc e => ?jrTaken, fun cc e => ?jrNot,
    fun e => ?djnzTaken, fun e => ?djnzNot⟩
  case jpTaken =>
    exact .of_next (fun s => s.setPc nn) (fun s h => congrArg Host.Outcome.next (if_pos ((condHolds_iff s cc).2 h)))
      (fun s _ => s.setPc_pc nn) fun s => s.setPc_onlyChanges nn
  case jpNot => exact doesWhen_nothing fun s h => congrArg Host.Outcome.next (if_neg (mt (condHolds_iff s cc).1 h))
  case jr => exact .of_next _ (fun _ => rfl) (fun s => toNat_add_sext s.pc e) fun s => s.setPc_onlyChanges _
  case jrTaken =>
    refine .of_next (fun s => s.jumpRel e) (fun s h => congrArg Host.Outcome.next (if_pos ?_)) (fun s _ => toNat_add_sext s.pc e)
      fun s => s.setPc_onlyChanges _
    rwa [jrCond_eq, condHolds_iff]
  case jrNot =>
    refine doesWhen_nothing fun s h => congrArg Host.Outcome.next (if_neg ?_)
    rwa [jrCond_eq, condHolds_iff]
  case djnzTaken =>
    refine .of_next (fun s => (s.setReg .b (s.main.b - 1)).jumpRel e) (fun s h => congrArg Host.Outcome.next (if_neg ?_))
      (fun s _ => ⟨rfl, toNat_add_sext s.pc e⟩) fun s =>
        (s.setReg_onlyChanges .b _).trans (State.setPc_onlyChanges _ _)
    intro hz
    exact h (by bv_omega)
  case djnzNot =>
    refine .of_next (fun s => s.setReg .b (s.main.b - 1)) (fun s h => congrArg Host.Outcome.next (if_pos ?_)) (fun s h => ?_) fun s =>
      s.setReg_onlyChanges .b _
    · rw [h]
      rfl
    · show s.main.b - 1 = 0
      rw [h]
      rfl

/-! ### Calls and returns (R287 to R293) -/

/-- Settles O33: a push of PC and a jump, or nothing. -/
theorem calls : Obligations.Calls := by
  refine ⟨fun nn => ?callNn, fun cc nn => ?callTaken, fun cc nn => ?callNot, fun n => ?rst⟩
  case callNn => exact (doesWhen_of_call nn fun _ _ => rfl).of_true
  case callTaken => exact doesWhen_of_call nn fun s h => if_pos ((condHolds_iff s cc).2 h)
  case callNot => exact doesWhen_nothing fun s h => if_neg (mt (condHolds_iff s cc).1 h)
  case rst =>
    refine (doesWhen_of_call (BitVec.ofNat 16 (8 * n.val)) fun _ _ => rfl).of_true.mono (fun _ hs => hs)
      (fun _ _ hp => hp) fun s t ⟨hpc, hpush⟩ => ⟨?_, hpush⟩
    have := n.isLt
    rw [hpc, BitVec.toNat_ofNat, Nat.mod_eq_of_lt (by omega)]

/-- Settles O34: a pop into PC, or nothing; `RETN` copies iff2 as well. -/
theorem returns : Obligations.Returns := by
  refine ⟨?ret, fun cc => ?retTaken, fun cc => ?retNot, ?reti, ?retn⟩
  case ret => exact (doesWhen_of_ret fun _ _ => rfl).of_true
  case retTaken => exact doesWhen_of_ret fun s h => if_pos ((condHolds_iff s cc).2 h)
  case retNot => exact doesWhen_nothing fun s h => if_neg (mt (condHolds_iff s cc).1 h)
  case reti => exact (doesWhen_of_ret fun _ _ => rfl).of_true
  case retn =>
    have hk (v : Word) (t : State) : OnlyChanges [.pc, .iff1] t { t.setPc v with iff1 := t.iff2 } := by
      intro p hp
      cases p with
      | pc | iff1 => exact absurd (by decide) hp
      | tags | peripherals => exact ⟨rfl, rfl⟩
      | _ => rfl
    refine (doesWhen_of_popThen (fun _ _ => rfl) hk (fun _ _ => rfl)
      (post := fun s t => t.pc = topWord s ∧ t.iff1 = s.iff2) fun _ => ⟨rfl, rfl⟩).of_true.mono (fun _ hs => hs)
      (fun _ p hp => ?_) fun s t ⟨hsp, hpc, hiff⟩ => ⟨hpc, hsp, hiff⟩
    simpa [or_left_comm] using hp

end Sys2Proof.Machine

/-! ## The step and what surrounds it (60_exceptions.md, 70_reset_and_hazards.md) -/

namespace Sys2Proof.Machine

/-! ### The bytes at PC -/

theorem bytesFrom_congr {s t : State} (h : t.mem = s.mem) (n : Nat) (a : Word) : t.bytesFrom n a = s.bytesFrom n a := by
  induction n generalizing a with
  | zero => rfl
  | succ n ih => simp only [State.bytesFrom, ih, State.readByte_congr h]

theorem take_bytesFrom (s : State) (k n : Nat) (a : Word) : (s.bytesFrom n a).take k <+: s.bytesFrom k a := by
  induction n generalizing k a with
  | zero => simp [State.bytesFrom]
  | succ n ih =>
    cases k with
    | zero => simp
    | succ k => exact (List.prefix_append_right_inj [s.readByte a]).2 (ih k (a + 1))

/-! ### The decode loop runs what the decoder reads (R93, R436) -/

/-- A unit after which decoding goes on is one prefix byte of the main page. -/
theorem decodeUnit_selecting {tag : PrefixTag} {page : Page} {b : Byte} {rest : List Byte} {p : Instr} {k : Nat}
    {sel : PrefixTag × Page} (hu : decodeUnit tag page (b :: rest) = some (p, k)) (hs : p.selects tag = some sel) :
    page = .main ∧ k = 1 ∧ encode p = [b] := by
  have hp : p.isPrefixByte = true := by
    cases h : p.isPrefixByte with
    | true => rfl
    | false =>
      rw [selects_of_wellFormed (decodeUnit_wellFormed hu h)] at hs
      cases hs
  cases page with
  | main =>
    obtain ⟨hk, he⟩ := decodeUnit_main_readBack tag p k hu
    simp only [hp, if_true] at he
    have hb := encode_isPrefixByte hp he
    have hlen := congrArg List.length (hb.symm.trans he)
    simp only [List.length_take, List.length_cons, List.length_nil] at hlen hk
    exact ⟨rfl, by omega, hb⟩
  | cb =>
    have hw : p.WellFormed := by
      match tag, rest with
      | .none, _ =>
        cases hu
        exact (encode_decodeCb b).1
      | .ix, [] | .iy, [] => cases hu
      | .ix, s :: _ =>
        cases hu
        exact (encode_decodeIndexCb .ix b s).1
      | .iy, s :: _ =>
        cases hu
        exact (encode_decodeIndexCb .iy b s).1
    cases hp.symm.trans (isPrefixByte_of_wellFormed hw)
  | ed =>
    have hd : decodeEd b rest = some (p, k) := by cases tag <;> exact hu
    cases hp.symm.trans (decodeEd_isPrefixByte hd)

/-- Only an index prefix byte leads back to the main page. -/
theorem isPrefix_of_selects_main {tag tag' : PrefixTag} {b : Byte} {p : Instr} (hs : p.selects tag = some (tag', .main))
    (he : encode p = [b]) : IsPrefix b := by
  cases p with
  | prefixDD =>
    cases he
    exact .inl rfl
  | prefixFD =>
    cases he
    exact .inr rfl
  | _ => cases hs

/-- The first byte that is no index prefix. -/
abbrev firstPrimary (bytes : List Byte) : Option Byte := bytes.find? fun c => c != 0xDD && c != 0xFD

theorem firstPrimary_cons_of_isPrefix {b : Byte} (h : IsPrefix b) (rest : List Byte) :
    firstPrimary (b :: rest) = firstPrimary rest := by
  rcases h with rfl | rfl <;> rfl

theorem isPrimary_of_not_isPrefix {b : Byte} (h : ¬IsPrefix b) : (b != 0xDD && b != 0xFD) = true := by
  rw [Bool.and_eq_true, bne_iff_ne, bne_iff_ne]
  exact not_or.1 h

theorem firstPrimary_cons_of_not_isPrefix {b : Byte} (h : ¬IsPrefix b) (rest : List Byte) :
    firstPrimary (b :: rest) = some b := List.find?_cons_of_pos (isPrimary_of_not_isPrefix h)

/-- The opcode check passes at an index prefix byte and at a primary opcode that is implemented. -/
theorem atUnknownPrimary_eq_false {s : State}
    (h : s.page = .main → IsPrefix (s.readByte s.pc) ∨ s.readByte s.pc ∉ s.cfg.unimplemented) :
    s.atUnknownPrimary = false := by
  cases hp : s.page with
  | main =>
    rcases h hp with (hb | hb) | hb <;> simp [State.atUnknownPrimary, rejectsPrimary, hp, hb]
  | cb | ed => simp [State.atUnknownPrimary, hp]

theorem advance_select_advance (s : State) (tag : PrefixTag) (page : Page) (m : Nat) :
    ((s.advance 1).select tag page).advance m = (s.advance (m + 1)).select tag page := by
  have h : s.advance (m + 1) = s.setPc (s.pc + 1 + BitVec.ofNat 16 m) := congrArg s.setPc (word_add_succ _ _)
  rw [h]
  rfl

/-- The decode loop, with a turn for each byte that the decoder may look at. -/
theorem runUnits_of_decodeFrom {n fuel : Nat} {s : State} {i : Instr} {len : Nat} (hfuel : n ≤ fuel)
    (hd : decodeFrom s.prefixTag s.page (s.bytesFrom n s.pc) = some (i, len))
    (hb : s.page = .main → ∃ b, firstPrimary (s.bytesFrom n s.pc) = some b ∧ b ∉ s.cfg.unimplemented) :
    runUnits fuel s = exec i (s.advance len).unselect := by
  induction n generalizing fuel s len with
  | zero => cases hd
  | succ n ih =>
    obtain ⟨fuel, rfl⟩ : ∃ f, fuel = f + 1 := ⟨fuel - 1, by omega⟩
    have hun : s.atUnknownPrimary = false := atUnknownPrimary_eq_false fun hpage => by
      obtain ⟨b, hfirst, hmem⟩ := hb hpage
      by_cases hpre : IsPrefix (s.readByte s.pc)
      · exact .inl hpre
      · cases (firstPrimary_cons_of_not_isPrefix hpre _).symm.trans hfirst
        exact .inr hmem
    have hmono {r : Instr × Nat} (hu : decodeUnit s.prefixTag s.page (s.bytesFrom (n + 1) s.pc) = some r) :
        decodeUnit s.prefixTag s.page (s.bytesFrom 3 s.pc) = some r := decodeUnit_mono hu (take_bytesFrom s 3 _ _)
    rcases decodeFrom_cons_cases hd with ⟨hu, hp⟩ | ⟨p, k, tag', page', m, hu, hs, hd', rfl⟩
    · have hw := decodeUnit_wellFormed hu hp
      exact runUnits_whole fuel s i len hun (hmono hu) (selects_of_wellFormed hw _)
    · obtain ⟨hpage, rfl, he⟩ := decodeUnit_selecting hu hs
      rw [runUnits_prefix fuel s _ p 1 hun (hmono hu) hs (exec_of_selects hs)]
      have hbytes := bytesFrom_congr (s := s) (t := (s.advance 1).select tag' page') rfl n (s.pc + 1)
      have hgo := ih (fuel := fuel) (s := (s.advance 1).select tag' page') (len := m) (by omega) (hbytes ▸ hd') ?_
      · rw [hgo, advance_select_advance]
        rfl
      · rintro rfl
        obtain ⟨b, hfirst, hmem⟩ := hb hpage
        refine ⟨b, ?_, hmem⟩
        rw [State.bytesFrom, firstPrimary_cons_of_isPrefix (isPrefix_of_selects_main hs he)] at hfirst
        exact (congrArg firstPrimary hbytes).trans hfirst

/-- A state that reaches decode steps by the decode loop. -/
theorem step_of_reachesDecode {s : State} (h : ReachesDecode s) : step s = runUnits maxUnits s.unselect := by
  obtain ⟨hf, hi, hh⟩ := h
  exact step_run s hf (by simpa using hi) hh

/-- Settles O44: the loop reads the same units as the decoder, which looks at no byte after the third of each. -/
theorem stepRunsDecoded : Obligations.StepRunsDecoded := by
  intro s n len i b hr hn hd hfirst hmem
  have hbytes := bytesFrom_congr (s := s) (t := s.unselect) rfl n s.pc
  have hfuel : n ≤ maxUnits := Nat.le_succ_of_le hn
  exact (step_of_reachesDecode hr).trans (runUnits_of_decodeFrom hfuel (hbytes ▸ hd) fun _ =>
    ⟨b, (congrArg firstPrimary hbytes).trans hfirst, hmem⟩)

/-! ### Runs of index prefix bytes (R114, R115) -/

/-- One turn of the decode loop at an index prefix byte. -/
theorem runUnits_isPrefix {s : State} (n : Nat) (hpage : s.page = .main) (hb : IsPrefix (s.readByte s.pc)) :
    ∃ tag, runUnits (n + 1) s = runUnits n ((s.advance 1).select tag .main) := by
  have hun : s.atUnknownPrimary = false := atUnknownPrimary_eq_false fun _ => .inl hb
  rcases hb with hb | hb
  · refine ⟨.ix, runUnits_prefix n s _ .prefixDD 1 hun ?_ rfl rfl⟩
    rw [hpage, State.bytesFrom, hb]
    cases s.prefixTag <;> rfl
  · refine ⟨.iy, runUnits_prefix n s _ .prefixFD 1 hun ?_ rfl rfl⟩
    rw [hpage, State.bytesFrom, hb]
    cases s.prefixTag <;> rfl

/-- As many turns as there are index prefix bytes at PC. -/
theorem runUnits_isPrefix_run {s : State} (n k : Nat) (hpage : s.page = .main)
    (hb : ∀ j < k, IsPrefix (s.readByte (s.pc + BitVec.ofNat 16 j))) :
    ∃ tag, runUnits (n + k) s = runUnits n ((s.advance k).select tag .main) := by
  induction k generalizing s with
  | zero =>
    refine ⟨s.prefixTag, congrArg (runUnits n) ?_⟩
    simp [State.advance, State.select, State.setPc, ← hpage]
  | succ k ih =>
    obtain ⟨tag, h⟩ := runUnits_isPrefix (n + k) hpage (by simpa using hb 0 k.succ_pos)
    obtain ⟨tag', h'⟩ := ih (s := (s.advance 1).select tag .main) rfl fun j hj => by
      have := hb (j + 1) (Nat.succ_lt_succ hj)
      rwa [word_add_succ] at this
    refine ⟨tag', h.trans (h'.trans (congrArg (runUnits n) ?_))⟩
    rw [advance_select_advance]
    rfl

theorem raiseUnknown_onlyChanges (s : State) (tag : PrefixTag) (pc : Word) (b : Byte) (a : Word) :
    OnlyChanges [.pc, .halted, .fault, .tags] s (((s.select tag .main).setPc pc).unselect.raiseUnknown b a) := by
  intro p hp
  cases p with
  | pc | halted | fault | tags => exact absurd (by decide) hp
  | peripherals => exact ⟨rfl, rfl⟩
  | _ => rfl

/-- Settles O45: the loop passes the index prefix bytes one by one, and then meets the opcode or runs out of turns. -/
theorem decodeFaults : Obligations.DecodeFaults := by
  constructor
  · intro s k b hr hk hpre hb hnot hmem
    obtain ⟨m, hm⟩ : ∃ m, maxUnits = m + 1 + k := ⟨65536 - k, by simp only [maxUnits]; omega⟩
    obtain ⟨tag, h⟩ := runUnits_isPrefix_run (s := s.unselect) (m + 1) k rfl hpre
    rw [step_of_reachesDecode hr, hm, h]
    have hun : ((s.unselect.advance k).select tag .main).atUnknownPrimary = true := by
      show (true && rejectsPrimary s.cfg (s.readByte (s.pc + BitVec.ofNat 16 k))) = true
      rw [hb, Bool.true_and, rejectsPrimary, isPrimary_of_not_isPrefix hnot, Bool.true_and, List.contains_iff_mem]
      exact hmem
    refine ⟨((s.select tag .main).setPc (s.pc + BitVec.ofNat 16 (k + 1))).unselect.raiseUnknown b _, ?_, rfl, rfl, rfl,
      raiseUnknown_onlyChanges s tag _ b _⟩
    have hpc : s.pc + BitVec.ofNat 16 (k + 1) = s.pc + BitVec.ofNat 16 k + 1 := by
      rw [BitVec.ofNat_add, BitVec.add_assoc]
      rfl
    simp only [runUnits, hun, if_true, hpc]
    rw [← hb]
    rfl
  · intro s hr hall
    obtain ⟨tag, h⟩ := runUnits_isPrefix_run (s := s.unselect) 0 maxUnits rfl fun j _ => hall _
    rw [step_of_reachesDecode hr]
    simpa [runUnits] using h

end Sys2Proof.Machine

/-! ## The entry of a step, the embedder, prefixes and CPU control -/

namespace Sys2Proof.Machine

/-! ### Interrupts (R437 to R442) -/

/-- The state in which the acknowledge pushes PC (R439). -/
def State.acknowledging (s : State) : State :=
  { s.unselect with iff1 := false, pending := false, halted := false }

theorem acknowledging_onlyChanges (s : State) :
    OnlyChanges [.iff1, .pending, .halted, .tags] s s.acknowledging := by
  intro p hp
  cases p with
  | iff1 | pending | halted | tags => exact absurd (by decide) hp
  | peripherals => exact ⟨rfl, rfl⟩
  | _ => rfl

/-- The acknowledge where the push has room. -/
theorem acknowledge_next {s : State} (h : RoomToPush s) :
    acknowledge s.unselect = .next ((s.acknowledging.pushed s.pc).setPc 0x0038) :=
  pushThen_next s.pc (fun t => t.setPc interruptVector) s.acknowledging h.ne.1 h.ne.2

/-- The acknowledge where the push faults at once. -/
theorem acknowledge_zero {s : State} (h : s.sp = 0) :
    acknowledge s.unselect = .fault (.stackOutOfRange s.acknowledging.raiseStack) :=
  pushThen_zero s.pc (fun t => t.setPc interruptVector) s.acknowledging h

/-- The acknowledge where the high byte of PC is pushed and then the push faults. -/
theorem acknowledge_one {s : State} (h : s.sp = 1) : acknowledge s.unselect =
    .fault (.stackOutOfRange ((s.acknowledging.setSp 0).writeByte 0 (hi s.pc)).raiseStack) :=
  pushThen_one s.pc (fun t => t.setPc interruptVector) s.acknowledging h

/-- Settles O46: the acknowledge is a push of PC from a state with the flip-flop, the latch and `halted` cleared. -/
theorem interruptAcknowledge : Obligations.InterruptAcknowledge := by
  constructor
  · intro s hf hp hi hr
    refine ⟨_, (step_interrupt s hf hp hi).trans (acknowledge_next hr), rfl, rfl, rfl, rfl,
      pushes_pushed s.acknowledging s.pc, ?_⟩
    refine ((acknowledging_onlyChanges s).trans (s.acknowledging.pushed_onlyChanges s.pc)).andThen
      (State.setPc_onlyChanges _ _) fun p hp => ?_
    change (p ∈ [.iff1, .pending, .halted, .tags] ++ pushParts s) ∨ p ∈ [.pc] at hp
    simp only [List.mem_append, List.mem_cons, List.not_mem_nil, or_false] at hp ⊢
    tauto
  · intro s hf hp hiff hr
    have hsp : s.sp = 0 ∨ s.sp = 1 := by
      have hnat : s.sp.toNat = 0 ∨ s.sp.toNat = 1 := by omega
      exact hnat.imp (fun h => BitVec.eq_of_toNat_eq h) fun h => BitVec.eq_of_toNat_eq h
    have hframe := acknowledging_onlyChanges s
    rcases hsp with h | h
    · refine ⟨s.acknowledging.raiseStack, (step_interrupt s hf hp hiff).trans (acknowledge_zero h), rfl, rfl, rfl, rfl, h,
        fun h1 => ?_, ?_⟩
      · rw [h] at h1
        cases h1
      · refine hframe.andThen (State.raiseStack_onlyChanges _) fun p hp => List.mem_append_left _ ?_
        simp only [List.mem_cons, List.not_mem_nil, or_false] at hp ⊢
        tauto
    · refine ⟨((s.acknowledging.setSp 0).writeByte 0 (hi s.pc)).raiseStack,
        (step_interrupt s hf hp hiff).trans (acknowledge_one h), rfl, rfl, rfl, rfl, rfl, fun _ => ?_, ?_⟩
      · exact State.readByte_writeByte_same _ 0 (hi s.pc)
      · rw [if_pos h]
        refine ((hframe.trans (State.setSp_onlyChanges _ 0)).trans (State.writeByte_onlyChanges _ 0 (hi s.pc))).andThen
          (State.raiseStack_onlyChanges _) fun p hp => ?_
        simp only [List.mem_append, List.mem_cons, List.not_mem_nil, or_false] at hp ⊢
        tauto

/-- Settles O47: the branches of `step` in order; of the embedder's calls only a reset writes the latch of the fault. -/
theorem stepEntryOrder : Obligations.StepEntryOrder := by
  constructor
  · refine fun s => ⟨step_faulted s, step_interrupt s, fun hf hh hi => ⟨s.unselect, ?_, s.unselect_onlyChanges⟩⟩
    exact step_halted s hf (by simpa using hi) hh
  · intro s c call t hf ht
    cases call with
    | step =>
      have hs : t = s := by
        rw [State.afterCall, step_faulted s c hf] at ht
        cases c <;> exact (Option.some.inj ht).symm
      exact ⟨nofun, fun _ => hs ▸ hf, fun _ => hs⟩
    | reset =>
      cases ht
      exact ⟨fun _ => rfl, fun h => absurd rfl h, nofun⟩
    | load base bytes =>
      cases ht
      refine ⟨nofun, fun _ => ?_, nofun⟩
      rw [State.load, State.storeBytes_eq]
      exact hf
    | interrupt | memReset | registerIn | registerOut =>
      cases ht
      exact ⟨nofun, fun _ => hf, nofun⟩

/-- Settles O48: the request is in the latch, and the flip-flops are set by the `EI`. -/
theorem interruptRequest : Obligations.InterruptRequest := by
  refine fun s => ⟨⟨rfl, ?halted, ?frame⟩, fun hf hr => ?ei⟩
  case halted => simp [State.interrupt]
  case frame =>
    intro p hp
    cases p with
    | pending | halted => exact absurd (by decide) hp
    | tags | peripherals => exact ⟨rfl, rfl⟩
    | _ => rfl
  case ei =>
    have hstep := (step_interrupt (s.interrupt.setIffs true) hf rfl rfl).trans (acknowledge_next hr)
    exact ⟨s.interrupt.setIffs true, _, rfl, hstep, rfl, pushes_pushed (s.interrupt.setIffs true).acknowledging s.pc⟩

/-! ### Redundant index prefixes (R117) -/

/-- Where the stack has room both ways every instruction completes. -/
theorem exec_next_of_room {i : Instr} (hb : bareInstr i = i) {s : State} (hpush : RoomToPush s) (hpop : RoomToPop s) :
    ∃ t, exec i s = .next t := by
  cases i with
  | pOp x i => cases i <;> cases hb
  | pushRp2 | pushXy | callNn | rst => exact ⟨_, pushThen_next _ _ s hpush.ne.1 hpush.ne.2⟩
  | popRp2 | popXy | ret | reti | retn => exact ⟨_, popThen_next _ s hpop.ne.1 hpop.ne.2⟩
  | callCcNn cc nn =>
    simp only [exec, execCallCcNn]
    split
    · exact ⟨_, pushThen_next _ _ s hpush.ne.1 hpush.ne.2⟩
    · exact ⟨_, rfl⟩
  | retCc cc =>
    simp only [exec, execRetCc]
    split
    · exact ⟨_, popThen_next _ s hpop.ne.1 hpop.ne.2⟩
    · exact ⟨_, rfl⟩
  | incRp rp =>
    cases rp with
    | sp => exact ⟨_, if_neg hpop.ne.1⟩
    | _ => exact ⟨_, rfl⟩
  | decRp rp =>
    cases rp with
    | sp => exact ⟨_, if_neg hpush.ne.1⟩
    | _ => exact ⟨_, rfl⟩
  | _ => exact ⟨_, rfl⟩

/-- Settles O43: the decoder reads the prefixed form from its encoding, and it runs as the instruction without it. -/
theorem prefixWithoutEffect : Obligations.PrefixWithoutEffect := by
  intro x i h
  have hbare : bareInstr i = i := by
    rcases exec_pOp_cases x i State.reset with ⟨-, hb⟩ | ⟨-, hn⟩
    · exact hb
    · cases h.symm.trans hn
  refine ⟨fun y => ⟨fun rest => decode_encode_pOp y i rest h, exec_pOp_of_unaffected h y⟩, fun s hpush hpop => ?_⟩
  obtain ⟨t, ht⟩ := exec_next_of_room hbare hpush hpop
  exact ⟨t, (exec_pOp_of_unaffected h x s).trans ht, ht⟩

/-! ### The prefix bytes (R93, R95, R99) and the unknown sub-opcodes (R113) -/

theorem select_onlyChanges (s : State) (tag : PrefixTag) (page : Page) : OnlyChanges [.tags] s (s.select tag page) := by
  intro p hp
  cases p with
  | tags => exact absurd (by decide) hp
  | peripherals => exact ⟨rfl, rfl⟩
  | _ => rfl

/-- Settles O42: each is one `select`. -/
theorem prefixBytes : Obligations.PrefixBytes := by
  refine ⟨?dd, ?fd, ?cb, ?ed⟩
  case dd => exact .of_next _ (fun _ => rfl) (fun _ => ⟨rfl, rfl⟩) fun s => select_onlyChanges s .ix .main
  case fd => exact .of_next _ (fun _ => rfl) (fun _ => ⟨rfl, rfl⟩) fun s => select_onlyChanges s .iy .main
  case cb => exact .of_next _ (fun _ => rfl) (fun _ => ⟨rfl, rfl⟩) fun s => select_onlyChanges s s.prefixTag .cb
  case ed => exact .of_next _ (fun _ => rfl) (fun _ => ⟨rfl, rfl⟩) fun s => select_onlyChanges s s.prefixTag .ed

/-- An instruction that only records an ignored sub-opcode. -/
theorem does_of_exec_ignore {i : Instr} (page : Page) (sub : Byte) (he : ∀ s, exec i s = .next (s.ignore page sub)) :
    Does i (fun _ => [.events]) fun s t => t.events = s.events ++ [.ignored page sub (s.pc - 1)] :=
  .of_next _ he (fun _ => rfl) fun s => s.record_onlyChanges _

/-- Settles O30: each is one entry in the history. -/
theorem unknownSubOpcodes : Obligations.UnknownSubOpcodes :=
  ⟨fun _ => does_of_exec_ignore .cb _ fun _ => rfl, fun _ _ n => does_of_exec_ignore .cb n fun _ => rfl,
    fun _ _ => does_of_exec_ignore .cb 0x36 fun _ => rfl, fun n => does_of_exec_ignore .ed n fun _ => rfl⟩

/-! ### CPU control (R348 to R352) -/

theorem setIm_onlyChanges (s : State) (m : IntMode) : OnlyChanges [.im] s { s with im := m } := by
  intro p hp
  cases p with
  | im => exact absurd (by decide) hp
  | tags | peripherals => exact ⟨rfl, rfl⟩
  | _ => rfl

/-- Settles O40: each writes the one latch or register, and `NOP` nothing. -/
theorem cpuControl : Obligations.CpuControl := by
  refine ⟨?nop, ?halt, ?ei, ?im0, ?im1, ?im2⟩
  case nop => exact .of_next id (fun _ => rfl) (fun _ => trivial) fun s => .refl _ s
  case halt =>
    refine .of_next _ (fun _ => rfl) (fun _ => rfl) fun s p hp => ?_
    cases p with
    | halted => exact absurd (by decide) hp
    | tags | peripherals => exact ⟨rfl, rfl⟩
    | _ => rfl
  case ei => exact .of_next _ (fun _ => rfl) (fun _ => ⟨rfl, rfl⟩) fun s => s.setIffs_onlyChanges true
  case im0 => exact .of_next _ (fun _ => rfl) (fun _ => rfl) fun s => setIm_onlyChanges s .im0
  case im1 => exact .of_next _ (fun _ => rfl) (fun _ => rfl) fun s => setIm_onlyChanges s .im1
  case im2 => exact .of_next _ (fun _ => rfl) (fun _ => rfl) fun s => setIm_onlyChanges s .im2

/-! ### The resets (R65, R470 to R474) -/

/-- Settles O55: a reset sets every part it names, whatever it was. -/
theorem resetFromAnyState : Obligations.ResetFromAnyState := by
  refine fun s => ⟨fun r => ?_, rfl, rfl, rfl, rfl, rfl, rfl, rfl, rfl, rfl, rfl, rfl, rfl, rfl, rfl, rfl⟩
  cases r <;> exact ⟨rfl, rfl⟩

/-- Settles O56: the memory reset empties the list of cells, and the CPU reset keeps it. -/
theorem memoryReset : Obligations.MemoryReset := by
  refine fun s a => ⟨rfl, rfl, fun p hp => ?_⟩
  cases p with
  | byte b => exact absurd rfl (hp b)
  | tags | peripherals => exact ⟨rfl, rfl⟩
  | _ => rfl

/-! ### Words of the table (R108 to R112) -/

/-- What a well-formed instruction is encoded as decodes to it. -/
theorem decodesTo_encode {bytes : List Byte} {i : Instr} (he : encode i = bytes) (hw : i.WellFormed) :
    DecodesTo bytes i := by
  subst he
  exact fun rest => decodeOfEncode i rest hw

/-- Settles O3: all but two of the words are encodings; those two have an index prefix byte without effect before one. -/
theorem wordsWrittenOut : Obligations.WordsWrittenOut := by
  refine ⟨?_, ?_, ?_, ?_, ?_, ?_, ?_, ?_, ?_, ?_, ?_, ?_, fun rest => ?overridden, fun rest => ?onEdPage, ?_⟩
  case overridden => exact decodeFrom_selecting rfl rfl (decodesTo_encode (i := .ldXyNn .iy 0x1234) rfl rfl rest)
  case onEdPage => exact decodeFrom_selecting rfl rfl (decodesTo_encode (i := .adcHlRp .bc) rfl rfl rest)
  all_goals exact decodesTo_encode rfl rfl

end Sys2Proof.Machine

/-! ## Flags in plain arithmetic (10_state.md R27, 42_alu8.md R191, 43_alu16.md) -/

namespace Sys2Proof.Machine

/-! ### Sign, zero, parity -/

/-- The top bit of a word says that it is in the upper half. -/
theorem getLsbD_top {n : Nat} (v : BitVec (n + 1)) : v.getLsbD n = decide (2 ^ n ≤ v.toNat) :=
  (BitVec.msb_eq_getLsbD_last v).symm.trans (BitVec.msb_eq_decide v)

theorem getLsbD_seven (v : Byte) : v.getLsbD 7 = true ↔ 128 ≤ v.toNat := by
  rw [getLsbD_top (n := 7), decide_eq_true_iff]
  exact Iff.rfl

theorem beq_zero_iff {w : Nat} (v : BitVec w) : (v == 0#w) = true ↔ v.toNat = 0 := by
  rw [beq_iff_eq, ← BitVec.toNat_inj, BitVec.toNat_zero]

theorem signZero_of_flags {t : State} {v : Byte} (hs : t.flag .s = v.getLsbD 7) (hz : t.flag .z = (v == 0)) :
    SignZero t v := by
  rw [SignZero, hs, hz]
  exact ⟨getLsbD_seven v, beq_zero_iff v⟩

/-- Whether a count is odd, one element at a time. -/
theorem foldr_xor_eq_countP (p : Nat → Bool) (l : List Nat) :
    l.foldr (fun i odd => p i ^^ odd) false = decide (l.countP p % 2 = 1) := by
  induction l with
  | nil => rfl
  | cons i l ih =>
    rw [List.foldr_cons, ih, List.countP_cons]
    cases p i <;> simp; grind

theorem parity_iff (v : Byte) : parity v = true ↔ ((List.range 8).countP fun i => v.getLsbD i) % 2 = 0 := by
  have h := foldr_xor_eq_countP (fun i => v.getLsbD i) (List.range 8)
  have hp : parity v = !(List.range 8).foldr (fun i odd => v.getLsbD i ^^ odd) false := by
    simp [parity, List.range, List.range.loop]
  rw [hp, h]
  simp

theorem evenParity_of_flag {t : State} {v : Byte} (h : t.flag .pv = parity v) : EvenParity t v := by
  rw [EvenParity, h]
  exact parity_iff v

/-! ### Signed overflow -/

/-- A number below `4 * m` modulo `2 * m`. -/
theorem mod_two_mul_cases {m s : Nat} (h : s < 4 * m) : s % (2 * m) = s ∨ s % (2 * m) + 2 * m = s := by
  rcases Nat.lt_or_ge s (2 * m) with hlt | hge
  · exact .inl (Nat.mod_eq_of_lt hlt)
  · refine .inr ?_
    rw [Nat.mod_eq_sub_mod hge, Nat.mod_eq_of_lt (by omega)]
    omega

/-- A word as a signed number. -/
theorem toInt_eq_ite {n : Nat} (a : BitVec (n + 1)) :
    a.toInt = if 2 ^ n ≤ a.toNat then (a.toNat : Int) - 2 * (2 ^ n : Nat) else a.toNat := by
  rw [BitVec.toInt_eq_toNat_cond, Nat.pow_succ]
  split <;> split <;> omega

theorem xor_decide (p q : Prop) [Decidable p] [Decidable q] : (decide p ^^ decide q) = true ↔ (p ↔ ¬q) := by
  by_cases p <;> by_cases q <;> simp [*]

/-- P/V after an addition: both operands have the sign that the result has not. -/
theorem add_overflow_iff {n : Nat} (a b : BitVec (n + 1)) (cin : Bool) :
    let res := BitVec.ofNat (n + 1) (a.toNat + b.toNat + cin.toNat)
    let sum := a.toInt + b.toInt + (cin.toNat : Int)
    ((a ^^^ res) &&& (b ^^^ res)).getLsbD n = true ↔ sum < -(2 ^ n : Nat) ∨ (2 ^ n : Nat) ≤ sum := by
  intro res sum
  have hc := cin.toNat_le
  have ha := a.isLt
  have hb := b.isLt
  have hr : res.toNat = (a.toNat + b.toNat + cin.toNat) % (2 * 2 ^ n) := by
    rw [BitVec.toNat_ofNat, Nat.pow_succ, Nat.mul_comm]
  rw [BitVec.getLsbD_and, BitVec.getLsbD_xor, BitVec.getLsbD_xor, getLsbD_top, getLsbD_top, getLsbD_top,
    Bool.and_eq_true, xor_decide, xor_decide]
  simp only [sum, toInt_eq_ite]
  rw [Nat.pow_succ] at ha hb
  obtain ⟨m, hm⟩ : ∃ m, m = 2 ^ n := ⟨_, rfl⟩
  simp only [← hm] at ha hb hr ⊢
  have hmod := mod_two_mul_cases (m := m) (s := a.toNat + b.toNat + cin.toNat) (by omega)
  rw [← hr] at hmod
  split <;> split <;> omega

/-- An integer not below `-(2 * m)` modulo `2 * m`. -/
theorem emod_two_mul_cases {m : Nat} {d : Int} (h : -(2 * m) ≤ d) (h' : d < 2 * m) :
    d % (2 * m) = d ∨ d % (2 * m) = d + 2 * m := by
  rcases lt_or_ge d 0 with hneg | hpos
  · refine .inr ?_
    rw [← Int.add_emod_right, Int.emod_eq_of_lt (by omega) (by omega)]
  · exact .inl (Int.emod_eq_of_lt hpos h')

/-- P/V after a subtraction: the minuend has the sign that neither the subtrahend nor the result has. -/
theorem sub_overflow_iff {n : Nat} (a b : BitVec (n + 1)) (cin : Bool) :
    let res := BitVec.ofInt (n + 1) ((a.toNat : Int) - b.toNat - cin.toNat)
    let diff := a.toInt - b.toInt - (cin.toNat : Int)
    ((a ^^^ b) &&& (a ^^^ res)).getLsbD n = true ↔ diff < -(2 ^ n : Nat) ∨ (2 ^ n : Nat) ≤ diff := by
  intro res diff
  have hc := cin.toNat_le
  have ha := a.isLt
  have hb := b.isLt
  have hr : (res.toNat : Int) = ((a.toNat : Int) - b.toNat - cin.toNat) % (2 * (2 ^ n : Nat)) := by
    rw [BitVec.toNat_ofInt, Nat.pow_succ, Nat.mul_comm, Int.toNat_of_nonneg (Int.emod_nonneg _ (by positivity))]
    rfl
  rw [BitVec.getLsbD_and, BitVec.getLsbD_xor, BitVec.getLsbD_xor, getLsbD_top, getLsbD_top, getLsbD_top,
    Bool.and_eq_true, xor_decide, xor_decide]
  simp only [diff, toInt_eq_ite]
  rw [Nat.pow_succ] at ha hb
  obtain ⟨m, hm⟩ : ∃ m, m = 2 ^ n := ⟨_, rfl⟩
  simp only [← hm] at ha hb hr ⊢
  have hmod := emod_two_mul_cases (m := m) (d := (a.toNat : Int) - b.toNat - cin.toNat) (by omega) (by omega)
  rw [← hr] at hmod
  split <;> split <;> omega

end Sys2Proof.Machine

/-! ## 8-bit arithmetic (42_alu8.md) -/

namespace Sys2Proof.Machine

/-! ### The accumulator operations (R190 to R199) -/

theorem toNat_ofInt_byte (d : Int) : ((BitVec.ofInt 8 d).toNat : Int) = d % 256 := by
  rw [BitVec.toNat_ofInt]
  exact Int.toNat_of_nonneg (Int.emod_nonneg _ (by decide))

theorem addResult_of_add8 {v : State → Byte} {cin : State → Bool} {s t : State}
    (ha : t.main.a = (add8 s.main.a (v s) (cin s)).1) (hf : t.main.f = (add8 s.main.a (v s) (cin s)).2) :
    AddResult v (fun s => (cin s).toNat) s t := by
  have hflag (fl : Flag) : t.flag fl = _ := (congrArg (flagOf · fl) hf).trans (flagOf_packF ..)
  refine ⟨?value, ?signZero, ?carry, ?half, ?overflow, hflag .n, hflag .y, hflag .x⟩
  case value =>
    rw [ha]
    exact BitVec.toNat_ofNat ..
  case signZero => exact ha ▸ signZero_of_flags (hflag .s) (hflag .z)
  case carry => rw [hflag .c, decide_eq_true_iff]
  case half => rw [hflag .h, decide_eq_true_iff]
  case overflow =>
    rw [hflag .pv]
    exact add_overflow_iff (n := 7) s.main.a (v s) (cin s)

theorem subResult_of_sub8 {a v : State → Byte} {cin : State → Bool} {res : State → Byte} {s t : State}
    (hres : res t = (sub8 (a s) (v s) (cin s)).1) (hf : t.main.f = (sub8 (a s) (v s) (cin s)).2) :
    SubResult a v (fun s => (cin s).toNat) res s t := by
  have hflag (fl : Flag) : t.flag fl = _ := (congrArg (flagOf · fl) hf).trans (flagOf_packF ..)
  refine ⟨?value, ?signZero, ?carry, ?half, ?overflow, hflag .n, hflag .y, hflag .x⟩
  case value =>
    rw [hres]
    exact toNat_ofInt_byte _
  case signZero => exact hres ▸ signZero_of_flags (hflag .s) (hflag .z)
  case carry =>
    rw [hflag .c, decide_eq_true_iff]
    beta_reduce
    omega
  case half =>
    rw [hflag .h, decide_eq_true_iff]
    beta_reduce
    omega
  case overflow =>
    rw [hflag .pv]
    exact sub_overflow_iff (n := 7) (a s) (v s) (cin s)

/-- A comparison has the flags of the subtraction. -/
theorem compareResult_of_sub8 {v : State → Byte} {s t : State} (hf : t.main.f = (sub8 s.main.a (v s) false).2) :
    CompareResult v s t := by
  obtain ⟨hvalue, ⟨hs, hz⟩, hc, hh, hpv, hn, hy, hx⟩ :=
    subResult_of_sub8 (a := fun s => s.main.a) (v := v) (cin := fun _ => false)
      (res := fun _ => (sub8 s.main.a (v s) false).1) rfl hf
  have hlt := s.main.a.isLt
  have hlt' := (v s).isLt
  simp only [Bool.toNat_false, Nat.add_zero, Nat.cast_zero, Int.sub_zero] at hvalue hc hh hpv
  beta_reduce at hs hz
  refine ⟨?_, ?_, hc, hh, hpv, hn, hy, hx⟩
  · rw [hs, ← hvalue]
    omega
  · rw [hz]
    omega

theorem logicResult_of_logic8 {bit : Bool → Bool → Bool} {v : State → Byte} {s t : State} {res : Byte}
    (hbit : ∀ k, res.getLsbD k = bit (s.main.a.getLsbD k) ((v s).getLsbD k))
    (ha : t.main.a = res) (hf : t.main.f = (logic8 res).2) : LogicResult bit v s t := by
  subst ha
  have hflag (fl : Flag) : t.flag fl = _ := (congrArg (flagOf · fl) hf).trans (flagOf_packF ..)
  exact ⟨fun k _ => hbit k, signZero_of_flags (hflag .s) (hflag .z), evenParity_of_flag (hflag .pv),
    ⟨hflag .h, hflag .n⟩, hflag .c, hflag .y, hflag .x⟩

/-- An accumulator operation writes A and F. -/
theorem alu_onlyChanges (s : State) (op : AluOp) (v : Byte) : OnlyChanges (.reg .a :: allFlags) s (s.alu op v) :=
  onlyChanges_setAF (List.mem_cons_self ..) fun fl hfl => absurd (List.mem_cons_of_mem _ (flag_mem_allFlags fl)) hfl

/-- `CP` writes F alone. -/
theorem alu_cp_onlyChanges (s : State) (v : Byte) : OnlyChanges allFlags s (s.alu .cp v) :=
  s.setF_onlyChanges fun fl hfl => absurd (flag_mem_allFlags fl) hfl

/-- The five operand forms are one operation on the operand's value (R190). -/
theorem accumulatorForms_of_alu {op : AluOp} {onReg : Reg8 → Instr} {onHl : Instr} {onN : Byte → Instr}
    {onIdx : Idx → Byte → Instr} {onHalf : Idx → Half → Instr} {claim : Instr → (State → Byte) → Prop}
    (h : ∀ i v, (∀ s, exec i s = .next (s.alu op (v s))) → claim i v)
    (hreg : ∀ r s, exec (onReg r) s = .next (s.alu op (s.reg r)))
    (hhl : ∀ s, exec onHl s = .next (s.alu op (s.readByte s.main.hl)))
    (hn : ∀ n s, exec (onN n) s = .next (s.alu op n))
    (hidx : ∀ x d s, exec (onIdx x d) s = .next (s.alu op (s.readByte (s.indexed x d))))
    (hhalf : ∀ x hf s, exec (onHalf x hf) s = .next (s.alu op (s.half x hf))) :
    AccumulatorForms onReg onHl onN onIdx onHalf claim :=
  ⟨fun r => h _ _ (hreg r), h _ _ hhl, fun n => h _ _ (hn n), fun x d => h _ _ (hidx x d), fun x hf => h _ _ (hhalf x hf)⟩

/-- Settles O16: the two operations are `add8`, with and without the carry. -/
theorem addAndAdc : Obligations.AddAndAdc := by
  constructor
  · refine accumulatorForms_of_alu (op := .add) (fun i v he => ?_) (fun _ _ => rfl) (fun _ => rfl) (fun _ _ => rfl)
      (fun _ _ _ => rfl) fun _ _ _ => rfl
    exact .of_next _ he (fun s => addResult_of_add8 (cin := fun _ => false) rfl rfl) fun s => alu_onlyChanges s .add (v s)
  · refine accumulatorForms_of_alu (op := .adc) (fun i v he => ?_) (fun _ _ => rfl) (fun _ => rfl) (fun _ _ => rfl)
      (fun _ _ _ => rfl) fun _ _ _ => rfl
    exact .of_next _ he (fun s => addResult_of_add8 (cin := (State.flag · .c)) rfl rfl) fun s => alu_onlyChanges s .adc (v s)

/-- Settles O17: the operations are `sub8`; `CP` keeps A, and `NEG` subtracts from 0. -/
theorem subSbcCpNeg : Obligations.SubSbcCpNeg := by
  refine ⟨?sub, ?sbc, ?cp, ?neg⟩
  case sub =>
    refine accumulatorForms_of_alu (op := .sub) (fun i v he => ?_) (fun _ _ => rfl) (fun _ => rfl) (fun _ _ => rfl)
      (fun _ _ _ => rfl) fun _ _ _ => rfl
    exact .of_next _ he (fun s => subResult_of_sub8 (cin := fun _ => false) rfl rfl) fun s => alu_onlyChanges s .sub (v s)
  case sbc =>
    refine accumulatorForms_of_alu (op := .sbc) (fun i v he => ?_) (fun _ _ => rfl) (fun _ => rfl) (fun _ _ => rfl)
      (fun _ _ _ => rfl) fun _ _ _ => rfl
    exact .of_next _ he (fun s => subResult_of_sub8 (cin := (State.flag · .c)) rfl rfl) fun s => alu_onlyChanges s .sbc (v s)
  case cp =>
    refine accumulatorForms_of_alu (op := .cp) (fun i v he => ?_) (fun _ _ => rfl) (fun _ => rfl) (fun _ _ => rfl)
      (fun _ _ _ => rfl) fun _ _ _ => rfl
    exact .of_next _ he (fun s => compareResult_of_sub8 rfl) fun s => alu_cp_onlyChanges s (v s)
  case neg =>
    refine .of_next _ (fun _ => rfl) (fun s => subResult_of_sub8 (cin := fun _ => false) rfl rfl) fun s => ?_
    exact onlyChanges_setAF (List.mem_cons_self ..) fun fl hfl =>
      absurd (List.mem_cons_of_mem _ (flag_mem_allFlags fl)) hfl

/-- Settles O18: the operations are the bitwise ones of words, with the flags of `logic8`. -/
theorem andXorOr : Obligations.AndXorOr := by
  refine ⟨?and, ?xor, ?or⟩
  case and =>
    refine accumulatorForms_of_alu (op := .and) (fun i v he => ?_) (fun _ _ => rfl) (fun _ => rfl) (fun _ _ => rfl)
      (fun _ _ _ => rfl) fun _ _ _ => rfl
    exact .of_next _ he (fun s => logicResult_of_logic8 (fun _ => BitVec.getLsbD_and) rfl rfl) fun s =>
      alu_onlyChanges s .and (v s)
  case xor =>
    refine accumulatorForms_of_alu (op := .xor) (fun i v he => ?_) (fun _ _ => rfl) (fun _ => rfl) (fun _ _ => rfl)
      (fun _ _ _ => rfl) fun _ _ _ => rfl
    exact .of_next _ he (fun s => logicResult_of_logic8 (fun _ => BitVec.getLsbD_xor) rfl rfl) fun s =>
      alu_onlyChanges s .xor (v s)
  case or =>
    refine accumulatorForms_of_alu (op := .or) (fun i v he => ?_) (fun _ _ => rfl) (fun _ => rfl) (fun _ _ => rfl)
      (fun _ _ _ => rfl) fun _ _ _ => rfl
    exact .of_next _ he (fun s => logicResult_of_logic8 (fun _ => BitVec.getLsbD_or) rfl rfl) fun s =>
      alu_onlyChanges s .or (v s)

end Sys2Proof.Machine

/-! ## Single operands: counting, rotates, bits, digits (42_alu8.md, 44_rotate_shift_bit.md) -/

namespace Sys2Proof.Machine

/-! ### The places of an operand -/

/-- A place that holds a byte: which part it is, how it is read and how it is written; F is no such place. -/
structure IsPlace (part : State → Part) (value : State → State → Byte) (write : State → Byte → State) : Prop where
  value_write : ∀ s v, value s (write s v) = v
  frame : ∀ s v, OnlyChanges [part s] s (write s v)
  f_write : ∀ s v, (write s v).main.f = s.main.f
  value_setF : ∀ s t f, value s (t.setF f) = value s t

theorem setF_reg (s : State) (f : Byte) (r : Reg8) : (s.setF f).reg r = s.reg r := by cases r <;> rfl

theorem setF_half (s : State) (f : Byte) (x : Idx) (hf : Half) : (s.setF f).half x hf = s.half x hf := by
  cases x <;> rfl

theorem isPlace_reg (r : Reg8) : IsPlace (fun _ => .reg r) (fun _ u => u.reg r) fun s v => s.setReg r v where
  value_write s v := s.setReg_reg r v
  frame s v := s.setReg_onlyChanges r v
  f_write s v := s.main.set_f r v
  value_setF _ t f := setF_reg t f r

theorem isPlace_half (x : Idx) (hf : Half) :
    IsPlace (fun _ => .half x hf) (fun _ u => u.half x hf) fun s v => s.setHalf x hf v where
  value_write s v := s.setHalf_half x hf v
  frame s v := s.setHalf_onlyChanges x hf v
  f_write s v := congrArg Bank.f (s.setHalf_main x hf v)
  value_setF _ t f := setF_half t f x hf

theorem isPlace_byte (a : State → Word) :
    IsPlace (fun s => .byte (a s)) (fun s u => u.readByte (a s)) fun s v => s.writeByte (a s) v where
  value_write s v := s.readByte_writeByte_same (a s) v
  frame s v := s.writeByte_onlyChanges (a s) v
  f_write _ _ := rfl
  value_setF _ _ _ := rfl

section
variable {i : Instr} {part : State → Part} {value : State → State → Byte} {write : State → Byte → State}

/-- An instruction that reads a place, and writes it and F. -/
theorem does_of_place (hp : IsPlace part value write) {g : State → Byte → Byte × Byte} {flags : List Part}
    {post : State → State → Prop}
    (he : ∀ s, exec i s = .next ((write s (g s (value s s)).1).setF (g s (value s s)).2))
    (hkept : ∀ s v fl, Part.flag fl ∉ flags → flagOf (g s v).2 fl = s.flag fl)
    (hpost : ∀ s t, value s t = (g s (value s s)).1 → t.main.f = (g s (value s s)).2 → post s t) :
    Does i (fun s => part s :: flags) post := by
  refine .of_next _ he (fun s => hpost s _ ((hp.value_setF s _ _).trans (hp.value_write s _)) rfl) fun s => ?_
  refine (hp.frame s _).trans (State.setF_onlyChanges _ fun fl hfl => (hkept s _ fl hfl).trans ?_)
  exact (congrArg (flagOf · fl) (hp.f_write s _)).symm

/-- An instruction that reads a place and writes it, and no flag. -/
theorem does_of_place_write (hp : IsPlace part value write) {g : Byte → Byte} {post : State → State → Prop}
    (he : ∀ s, exec i s = .next (write s (g (value s s)))) (hpost : ∀ s t, value s t = g (value s s) → post s t) :
    Does i (fun s => [part s]) post :=
  .of_next _ he (fun s => hpost s _ (hp.value_write s _)) fun s => hp.frame s _

end

/-- A flag byte made by `keepYX` with the old carry keeps C, Y and X. -/
theorem flagOf_keepYX_of_not_mem_incFlags {f : Byte} {s z h pv n : Bool} (fl : Flag) (hfl : Part.flag fl ∉ incFlags) :
    flagOf (keepYX f s z h pv n (flagOf f .c)) fl = flagOf f fl := by
  rw [flagOf_keepYX]
  cases fl with
  | s | z | h | pv | n => exact absurd (by decide) hfl
  | c | y | x => rfl

/-- A flag byte made by `keepYX` keeps Y and X. -/
theorem flagOf_keepYX_of_not_mem_namedFlags {f : Byte} {s z h pv n c : Bool} (fl : Flag)
    (hfl : Part.flag fl ∉ namedFlags) : flagOf (keepYX f s z h pv n c) fl = flagOf f fl := by
  rw [flagOf_keepYX]
  cases fl with
  | s | z | h | pv | n | c => exact absurd (by decide) hfl
  | y | x => rfl

/-! ### INC and DEC of a byte (R200 to R203) -/

theorem beq_iff_toInt (a b : Byte) : (a == b) = true ↔ a.toInt = b.toInt := by rw [beq_iff_eq, BitVec.toInt_inj]

theorem incResult_of_inc8 {f old new : Byte} {t : State} (hv : new = (inc8 f old).1) (hf : t.main.f = (inc8 f old).2) :
    IncResult old new t := by
  subst hv
  have hflag (fl : Flag) : t.flag fl = _ := (congrArg (flagOf · fl) hf).trans (flagOf_keepYX ..)
  refine ⟨BitVec.toNat_add .., signZero_of_flags (hflag .s) (hflag .z), ?_, ?_, hflag .n⟩
  · rw [hflag .h, beq_iff_eq]
  · rw [hflag .pv]
    exact beq_iff_toInt old 0x7F

theorem decResult_of_dec8 {f old new : Byte} {t : State} (hv : new = (dec8 f old).1) (hf : t.main.f = (dec8 f old).2) :
    DecResult old new t := by
  subst hv
  have hflag (fl : Flag) : t.flag fl = _ := (congrArg (flagOf · fl) hf).trans (flagOf_keepYX ..)
  refine ⟨?_, signZero_of_flags (hflag .s) (hflag .z), ?_, ?_, hflag .n⟩
  · rw [Nat.add_comm]
    exact BitVec.toNat_sub old 1
  · rw [hflag .h, beq_iff_eq]
  · rw [hflag .pv]
    exact beq_iff_toInt old 0x80

section
variable {i : Instr} {part : State → Part} {value : State → State → Byte} {write : State → Byte → State}

theorem incResult_of_place (hp : IsPlace part value write)
    (he : ∀ s, exec i s = .next ((write s (inc8 s.main.f (value s s)).1).setF (inc8 s.main.f (value s s)).2)) :
    Does i (fun s => part s :: incFlags) fun s t => IncResult (value s s) (value s t) t :=
  does_of_place hp (g := fun s => inc8 s.main.f) he (fun _ _ => flagOf_keepYX_of_not_mem_incFlags) fun _ _ =>
    incResult_of_inc8

theorem decResult_of_place (hp : IsPlace part value write)
    (he : ∀ s, exec i s = .next ((write s (dec8 s.main.f (value s s)).1).setF (dec8 s.main.f (value s s)).2)) :
    Does i (fun s => part s :: incFlags) fun s t => DecResult (value s s) (value s t) t :=
  does_of_place hp (g := fun s => dec8 s.main.f) he (fun _ _ => flagOf_keepYX_of_not_mem_incFlags) fun _ _ =>
    decResult_of_dec8

end

/-- Settles O19: one operation on three kinds of place. -/
theorem incAndDecByte : Obligations.IncAndDecByte := by
  refine ⟨fun r => ?incR, fun x hf => ?incHalf, ?incIndHl, fun x d => ?incIdx, fun r => ?decR, fun x hf => ?decHalf,
    ?decIndHl, fun x d => ?decIdx⟩
  case incR => exact incResult_of_place (isPlace_reg r) fun _ => rfl
  case incHalf => exact incResult_of_place (isPlace_half x hf) fun _ => rfl
  case incIndHl => exact incResult_of_place (isPlace_byte fun s => s.main.hl) fun _ => rfl
  case incIdx => exact incResult_of_place (isPlace_byte fun s => s.indexed x d) fun _ => rfl
  case decR => exact decResult_of_place (isPlace_reg r) fun _ => rfl
  case decHalf => exact decResult_of_place (isPlace_half x hf) fun _ => rfl
  case decIndHl => exact decResult_of_place (isPlace_byte fun s => s.main.hl) fun _ => rfl
  case decIdx => exact decResult_of_place (isPlace_byte fun s => s.indexed x d) fun _ => rfl

/-! ### The CB page (R249 to R262) -/

/-- The three forms of a CB-page instruction are one operation on three places. -/
theorem cbForms_of_place {onReg : Reg8 → Instr} {onHl : Instr} {onIdx : Idx → Byte → Instr}
    {claim : Instr → (State → Part) → (State → State → Byte) → Prop}
    (f : (value : State → State → Byte) → (write : State → Byte → State) → State → State)
    (h : ∀ i part value write, IsPlace part value write → (∀ s, exec i s = .next (f value write s)) → claim i part value)
    (hreg : ∀ r s, exec (onReg r) s = .next (f (fun _ u => u.reg r) (fun s v => s.setReg r v) s))
    (hhl : ∀ s, exec onHl s = .next (f (fun s u => u.readByte s.main.hl) (fun s v => s.writeByte s.main.hl v) s))
    (hidx : ∀ x d s, exec (onIdx x d) s =
      .next (f (fun s u => u.readByte (s.indexed x d)) (fun s v => s.writeByte (s.indexed x d) v) s)) :
    CbForms onReg onHl onIdx claim :=
  ⟨fun r => h _ _ _ _ (isPlace_reg r) (hreg r), h _ _ _ _ (isPlace_byte fun s => s.main.hl) hhl,
    fun x d => h _ _ _ _ (isPlace_byte fun s => s.indexed x d) (hidx x d)⟩

/-- A rotate or shift of a place, as the CB page has it. -/
def rotatePlace (op : RotOp) (value : State → State → Byte) (write : State → Byte → State) (s : State) : State :=
  (write s (rotResult op s.main.f (value s s)).1).setF (rotResult op s.main.f (value s s)).2

theorem rotatesPlace_of_exec {op : RotOp} {i : Instr} {part : State → Part} {value : State → State → Byte}
    {write : State → Byte → State} (hp : IsPlace part value write)
    (he : ∀ s, exec i s = .next (rotatePlace op value write s)) : RotatesPlace op i part value := by
  refine does_of_place hp (g := fun s => rotResult op s.main.f) he (fun _ _ => flagOf_keepYX_of_not_mem_namedFlags)
    fun s t hv hf => ?_
  have hflag (fl : Flag) : t.flag fl = _ := (congrArg (flagOf · fl) hf).trans (flagOf_keepYX ..)
  refine ⟨?_, ?_, hv ▸ signZero_of_flags (hflag .s) (hflag .z), hv ▸ evenParity_of_flag (hflag .pv), hflag .h, hflag .n⟩
  · rw [hv]
    exact toNat_rotate_value op (s.flag .c) (value s s)
  · rw [hflag .c]
    exact rotate_out_iff op (s.flag .c) (value s s)

/-- Settles O27: the seven operations are `rotate`, whose value and carry are those on numbers. -/
theorem rotateAndShift : Obligations.RotateAndShift := by
  refine ⟨?_, ?_, ?_, ?_, ?_, ?_, ?_⟩ <;>
    exact cbForms_of_place (rotatePlace _) (fun _ _ _ _ => rotatesPlace_of_exec) (fun _ _ => rfl) (fun _ => rfl)
      fun _ _ _ => rfl

theorem getLsbD_one_shiftLeft (b : Fin 8) (k : Nat) : ((1 : Byte) <<< b.val).getLsbD k = decide (k = b.val) := by
  refine (BitVec.getLsbD_twoPow b.val k).trans ?_
  simp [b.isLt, eq_comm]

theorem getLsbD_resBit (b : Fin 8) (v : Byte) (k : Nat) (hk : k < 8) :
    (resBit b v).getLsbD k = if k = b.val then false else v.getLsbD k := by
  rw [resBit, BitVec.getLsbD_and, BitVec.getLsbD_not, getLsbD_one_shiftLeft b k]
  split <;> simp [*]

theorem getLsbD_setBit (b : Fin 8) (v : Byte) (k : Nat) :
    (setBit b v).getLsbD k = if k = b.val then true else v.getLsbD k := by
  rw [setBit, BitVec.getLsbD_or, getLsbD_one_shiftLeft b k]
  split <;> simp [*]

theorem testsBit_of_exec {b : Fin 8} {i : Instr} {part : State → Part} {value : State → State → Byte}
    (he : ∀ s, exec i s = .next (s.setF (bitF s.main.f b (value s s)))) : TestsBit b i part value := by
  have hflag (s : State) (v : Byte) (fl : Flag) : (s.setF (bitF s.main.f b v)).flag fl = _ := flagOf_keepYX ..
  refine .of_next _ he (fun s => ⟨?_, hflag s _ .h, hflag s _ .n⟩) fun s => s.setF_onlyChanges fun fl hfl =>
    (hflag s _ fl).trans ?_
  · rw [hflag s _ .z]
    simp
  · cases fl with
    | z | h | n => exact absurd (by decide) hfl
    | s | y | x | pv | c => rfl

/-- Settles O28: a test writes F alone, the other two one bit of the place. -/
theorem bitResSet : Obligations.BitResSet := by
  refine fun b => ⟨?bit, ?res, ?set⟩
  case bit =>
    exact cbForms_of_place (fun value _ s => s.setF (bitF s.main.f b (value s s))) (fun _ _ _ _ _ => testsBit_of_exec)
      (fun _ _ => rfl) (fun _ => rfl) fun _ _ _ => rfl
  case res =>
    refine cbForms_of_place (fun value write s => write s (resBit b (value s s))) (fun i part value write hp he => ?_)
      (fun _ _ => rfl) (fun _ => rfl) fun _ _ _ => rfl
    exact does_of_place_write hp he fun s t hv k hk => hv ▸ getLsbD_resBit b _ k hk
  case set =>
    refine cbForms_of_place (fun value write s => write s (setBit b (value s s))) (fun i part value write hp he => ?_)
      (fun _ _ => rfl) (fun _ => rfl) fun _ _ _ => rfl
    exact does_of_place_write hp he fun s t hv k _ => hv ▸ getLsbD_setBit b _ k

end Sys2Proof.Machine

/-! ## The accumulator alone, decimals, digits and pairs (40_load8.md, 42_alu8.md, 43_alu16.md, 44_rotate_shift_bit.md) -/

namespace Sys2Proof.Machine

/-! ### LD A,I and LD A,R (R149, R150) -/

/-- An instruction that loads A from a register and F with `loadIRF`. -/
theorem does_of_exec_loadIR {i : Instr} (v : State → Byte)
    (he : ∀ s, exec i s = .next (s.setAF (v s) (loadIRF s.main.f (v s) s.iff2))) :
    Does i (fun _ => .reg .a :: incFlags) fun s t =>
      t.main.a = v s ∧ SignZero t (v s) ∧ t.flag .pv = s.iff2 ∧ HalfAndSubtractClear t := by
  have hflag (s : State) (fl : Flag) : (s.setAF (v s) (loadIRF s.main.f (v s) s.iff2)).flag fl = _ := flagOf_keepYX ..
  refine .of_next _ he (fun s => ⟨rfl, signZero_of_flags (hflag s .s) (hflag s .z), hflag s .pv, hflag s .h, hflag s .n⟩)
    fun s => onlyChanges_setAF (List.mem_cons_self ..) fun fl hfl => ?_
  exact flagOf_keepYX_of_not_mem_incFlags fl fun h => hfl (List.mem_cons_of_mem _ h)

/-- Settles O9: both are one load, of I and of R. -/
theorem readSpecialRegisters : Obligations.ReadSpecialRegisters :=
  ⟨does_of_exec_loadIR State.regI fun _ => rfl, does_of_exec_loadIR State.regR fun _ => rfl⟩

/-! ### CPL, SCF, CCF (R205 to R208) -/

/-- Settles O20: each writes the flags it names. -/
theorem cplScfCcf : Obligations.CplScfCcf := by
  refine ⟨decodesTo_of_decodeMain (fun _ => rfl) rfl, decodesTo_of_decodeMain (fun _ => rfl) rfl,
    decodesTo_of_decodeMain (fun _ => rfl) rfl, ?cpl, ?scf, ?ccf⟩
  case cpl =>
    have hflag (s : State) (fl : Flag) : (s.setAF (s.main.a ^^^ 0xFF) (cplF s.main.f)).flag fl = _ := flagOf_keepYX ..
    refine .of_next _ (fun _ => rfl) (fun s => ⟨?_, hflag s .h, hflag s .n⟩) fun s =>
      onlyChanges_setAF (by decide) fun fl hfl => (hflag s fl).trans ?_
    · have hnot : s.main.a ^^^ 0xFF = ~~~s.main.a := BitVec.xor_allOnes
      show (s.main.a ^^^ 0xFF).toNat = _
      rw [hnot, BitVec.toNat_not]
    · cases fl with
      | h | n => exact absurd (by decide) hfl
      | s | z | y | x | pv | c => rfl
  case scf =>
    have hflag (s : State) (fl : Flag) : (s.setF (scfF s.main.f)).flag fl = _ := flagOf_keepYX ..
    refine .of_next _ (fun _ => rfl) (fun s => ⟨hflag s .c, hflag s .h, hflag s .n⟩) fun s =>
      s.setF_onlyChanges fun fl hfl => (hflag s fl).trans ?_
    cases fl with
    | c | h | n => exact absurd (by decide) hfl
    | s | z | y | x | pv => rfl
  case ccf =>
    have hflag (s : State) (fl : Flag) : (s.setF (ccfF s.main.f)).flag fl = _ := flagOf_keepYX ..
    refine .of_next _ (fun _ => rfl) (fun s => ⟨hflag s .c, hflag s .h, hflag s .n⟩) fun s =>
      s.setF_onlyChanges fun fl hfl => (hflag s fl).trans ?_
    cases fl with
    | c | h | n => exact absurd (by decide) hfl
    | s | z | y | x | pv => rfl

/-! ### DAA (R204) -/

/-- The correction of `DAA`, as its two digits. -/
theorem toNat_daaCorrection (low high : Bool) :
    (((if low then 0x06 else 0) ||| (if high then 0x60 else 0) : Byte)).toNat =
      (if low = true then 6 else 0) + (if high = true then 0x60 else 0) := by
  cases low <;> cases high <;> rfl

theorem toNat_daaResult (a f : Byte) :
    (daaResult a f).1.toNat =
      let corr := (if flagOf f .h = true ∨ 9 < a.toNat % 16 then 6 else 0) +
        (if flagOf f .c = true ∨ 0x99 < a.toNat then 0x60 else 0)
      if flagOf f .n = true then (a.toNat + 256 - corr) % 256 else (a.toNat + corr) % 256 := by
  have hcorr := toNat_daaCorrection (decide (flagOf f .h = true ∨ 9 < a.toNat % 16))
    (decide (flagOf f .c = true ∨ 0x99 < a.toNat))
  simp only [decide_eq_true_iff] at hcorr
  simp only [daaResult, decide_eq_true_iff]
  split
  · rw [BitVec.toNat_sub, hcorr]
    split <;> split <;> omega
  · rw [BitVec.toNat_add, hcorr]

/-- Settles O21: the value is that of the correction's digits on numbers. -/
theorem decimalAdjust : Obligations.DecimalAdjust := by
  have hflag (s : State) (fl : Flag) :
      (s.setAF (daaResult s.main.a s.main.f).1 (daaResult s.main.a s.main.f).2).flag fl = _ := flagOf_keepYX ..
  refine .of_next _ (fun _ => rfl) (fun s => ⟨toNat_daaResult _ _, ?carry, ?half,
    signZero_of_flags (hflag s .s) (hflag s .z), evenParity_of_flag (hflag s .pv)⟩) fun s =>
      onlyChanges_setAF (by decide) fun fl hfl => (hflag s fl).trans ?frame
  case carry =>
    rw [hflag s .c]
    exact decide_eq_true_iff
  case half =>
    rw [hflag s .h]
    show (if s.flag .n = true then _ else _) = true ↔ _
    split
    · rw [Bool.and_eq_true, decide_eq_true_iff]
      rfl
    · exact decide_eq_true_iff
  case frame =>
    cases fl with
    | s | z | h | pv | c => exact absurd (by decide) hfl
    | y | x | n => rfl

theorem toNat_bcd {n : Nat} (h : n < 100) : (bcd n).toNat = n / 10 * 16 + n % 10 := by
  rw [bcd, BitVec.toNat_ofNat]
  omega

/-- The two digits of a number below 200 as BCD: a hundred is 0x60 short of a carry. -/
theorem bcd_digits {x y : Nat} (hx : x < 20) (hy : y < 10) :
    (x * 16 + y + (if 100 ≤ x * 10 + y then 0x60 else 0)) % 256 =
      (x * 10 + y) % 100 / 10 * 16 + (x * 10 + y) % 100 % 10 := by
  have hhigh : (x * 10 + y) % 100 / 10 = x % 10 := by omega
  have hlow : (x * 10 + y) % 100 % 10 = y := by omega
  rw [hhigh, hlow]
  split
  · have : x % 10 = x - 10 := by omega
    omega
  · have : x % 10 = x := by omega
    omega

section
variable {p q r u : Nat} (hp : p < 10) (hq : q < 10) (hr : r < 10) (hu : u < 10)
include hq hu

/-- The low digit is corrected when the low digits pass 9. -/
theorem daa_low_iff : (15 < (p * 16 + q) % 16 + (r * 16 + u) % 16 ∨ 9 < (p * 16 + q + (r * 16 + u)) % 256 % 16) ↔
    10 ≤ q + u := by omega

include hp hr

/-- The high digit is corrected when the sum passes 99. -/
theorem daa_high_iff : (255 < p * 16 + q + (r * 16 + u) ∨ 0x99 < (p * 16 + q + (r * 16 + u)) % 256) ↔
    100 ≤ p * 10 + q + (r * 10 + u) := by omega

/-- The corrected sum of two numbers of two digits. -/
theorem daa_sum : ((p * 16 + q + (r * 16 + u)) % 256 + ((if 10 ≤ q + u then 6 else 0) +
      (if 100 ≤ p * 10 + q + (r * 10 + u) then 0x60 else 0))) % 256 =
    (p * 10 + q + (r * 10 + u)) % 100 / 10 * 16 + (p * 10 + q + (r * 10 + u)) % 100 % 10 := by
  rw [Nat.mod_add_mod]
  by_cases hlow : 10 ≤ q + u
  · have h := bcd_digits (x := p + r + 1) (y := q + u - 10) (by omega) (by omega)
    rw [show (p + r + 1) * 10 + (q + u - 10) = p * 10 + q + (r * 10 + u) by omega] at h
    rw [← h, if_pos hlow]
    congr 1
    omega
  · have h := bcd_digits (x := p + r) (y := q + u) (by omega) (by omega)
    rw [show (p + r) * 10 + (q + u) = p * 10 + q + (r * 10 + u) by omega] at h
    rw [← h, if_neg hlow]
    congr 1
    omega

end

/-- Settles O22: the two statements about `ADD` and `DAA` leave arithmetic on the four digits. -/
theorem daaAddsDecimals : Obligations.DaaAddsDecimals := by
  intro s m n hm hn ha
  obtain ⟨⟨-, -, hadd, -, -⟩, -⟩ := addAndAdc
  obtain ⟨t, ht, ⟨hsum, -, htc, hth, -, htn, -, -⟩, -⟩ := hadd (bcd n) s
  obtain ⟨u, hu, ⟨hres, huc, -⟩, -⟩ := decimalAdjust t
  have hp : m / 10 < 10 := by omega
  have hq : m % 10 < 10 := Nat.mod_lt m (by decide)
  have hr : n / 10 < 10 := by omega
  have hv : n % 10 < 10 := Nat.mod_lt n (by decide)
  have hlow := daa_low_iff (p := m / 10) (r := n / 10) hq hv
  have hhigh := daa_high_iff hp hq hr hv
  have hvalue := daa_sum hp hq hr hv
  rw [Nat.div_add_mod' m 10, Nat.div_add_mod' n 10] at hhigh hvalue
  refine ⟨t, u, ht, hu, BitVec.eq_of_toNat_eq ?_, ?_⟩
  · rw [hres, toNat_bcd (Nat.mod_lt _ (by decide)), ← hvalue]
    simp only [htn, htc, hth, hsum, ha, toNat_bcd hm, toNat_bcd hn, Nat.add_zero, hlow, hhigh, Bool.false_eq_true, if_false]
  · rw [huc]
    simp only [htc, hsum, ha, toNat_bcd hm, toNat_bcd hn, Nat.add_zero, hhigh]

end Sys2Proof.Machine

/-! ## Pairs, digits, and two steps in a row (43_alu16.md, 44_rotate_shift_bit.md, 95_test_vectors.md) -/

namespace Sys2Proof.Machine

/-! ### LD A,x and ADD A,y by two steps (P4) -/

/-- Settles O23: each step runs what the decoder reads at PC, and the second adds to the A that the first loaded. -/
theorem addProperty : Obligations.AddProperty := by
  intro s x y hr himpl hbytes
  have hbyte (b : Byte) : b ∉ s.cfg.unimplemented := himpl ▸ List.not_mem_nil
  have hload := stepRunsDecoded s 4 2 (.ldRN .a x) 0x3E hr (by decide) (hbytes ▸ rfl) (hbytes ▸ rfl) (hbyte _)
  obtain ⟨t, ht⟩ : ∃ t, t = State.setReg { s with pc := s.pc + 2, prefixTag := .none, page := .main } .a x := ⟨_, rfl⟩
  have hmem : t.mem = s.mem := ht ▸ rfl
  have hpc : t.pc = s.pc + 2 := ht ▸ rfl
  have hbytes' : t.bytesFrom 2 t.pc = [0xC6, y] := by
    have htwo : s.pc + 2 = s.pc + 1 + 1 := word_add_succ s.pc 1
    simp only [State.bytesFrom, List.cons.injEq, and_true] at hbytes
    obtain ⟨-, -, hop, hn⟩ := hbytes
    rw [hpc, bytesFrom_congr hmem, htwo]
    simp only [State.bytesFrom, hop, hn]
  have hadd := stepRunsDecoded t 2 2 (.addAN y) 0xC6 (ht ▸ hr) (by decide) (hbytes' ▸ rfl) (hbytes' ▸ rfl)
    (ht ▸ hbyte _)
  obtain ⟨⟨-, -, hn, -, -⟩, -⟩ := addAndAdc
  obtain ⟨u, hu, ⟨hsum, -, hc, -⟩, hframe⟩ := hn y { t with pc := t.pc + 2, prefixTag := .none, page := .main }
  have ha : t.main.a = x := ht ▸ rfl
  refine ⟨t, u, ht ▸ hload, hadd.trans hu, ?_, ?_, ?_⟩
  · rw [hsum]
    simp [ha]
  · rw [hc]
    simp [ha]
  · have hupc : u.pc = t.pc + 2 := hframe .pc (by simp [allFlags, namedFlags])
    rw [hupc, hpc, BitVec.add_assoc]
    rfl

/-! ### Arithmetic of pairs (R230 to R234) -/

theorem toNat_ofInt_word (d : Int) : ((BitVec.ofInt 16 d).toNat : Int) = d % 65536 := by
  rw [BitVec.toNat_ofInt]
  exact Int.toNat_of_nonneg (Int.emod_nonneg _ (by decide))

theorem getLsbD_fifteen (v : Word) : v.getLsbD 15 = true ↔ 0x8000 ≤ v.toNat := by
  rw [getLsbD_top (n := 15), decide_eq_true_iff]
  exact Iff.rfl

theorem setHl_setF_hl (s : State) (v : Word) (f : Byte) : ((s.setHl v).setF f).main.hl = v := pair_hi_lo v

theorem setXy_setF_xy (s : State) (x : Idx) (v : Word) (f : Byte) : ((s.setXy x v).setF f).xy x = v := by
  cases x <;> rfl

/-- The flags of an addition of pairs without the carry. -/
theorem add16_flags {t : State} {f : Byte} {a b : Word} (hf : t.main.f = (add16 f a b).2) :
    (t.flag .c = true ↔ 0xFFFF < a.toNat + b.toNat) ∧
    (t.flag .h = true ↔ 0xFFF < a.toNat % 0x1000 + b.toNat % 0x1000) ∧ t.flag .n = false := by
  have hflag (fl : Flag) : t.flag fl = _ := (congrArg (flagOf · fl) hf).trans (flagOf_keepYX ..)
  refine ⟨?_, ?_, hflag .n⟩
  · rw [hflag .c, decide_eq_true_iff]
  · rw [hflag .h, decide_eq_true_iff]

theorem flagOf_add16_kept (f : Byte) (a b : Word) (fl : Flag)
    (hfl : Part.flag fl ∉ ([.flag .c, .flag .h, .flag .n] : List Part)) : flagOf (add16 f a b).2 fl = flagOf f fl := by
  refine (flagOf_keepYX ..).trans ?_
  cases fl with
  | c | h | n => exact absurd (by decide) hfl
  | s | z | y | x | pv => rfl

/-- A write of HL and of F. -/
theorem setHl_setF_onlyChanges {flags : List Part} (s : State) (v : Word) {f : Byte}
    (hkept : ∀ fl, Part.flag fl ∉ flags → flagOf f fl = flagOf s.main.f fl) :
    OnlyChanges (pairParts .hl ++ flags) s ((s.setHl v).setF f) :=
  (s.setHl_onlyChanges v).trans (State.setF_onlyChanges _ hkept)

/-- A write of an index register and of F. -/
theorem setXy_setF_onlyChanges {flags : List Part} (s : State) (x : Idx) (v : Word) {f : Byte}
    (hkept : ∀ fl, Part.flag fl ∉ flags → flagOf f fl = flagOf s.main.f fl) :
    OnlyChanges (indexParts x ++ flags) s ((s.setXy x v).setF f) := by
  refine (s.setXy_onlyChanges x v).trans (State.setF_onlyChanges _ fun fl hfl => (hkept fl hfl).trans ?_)
  cases x <;> rfl

/-- HL and the six flags after `ADC HL,rp` of `b` to `a` (R231). -/
def AdcPairResult (a b : Word) (cin : Nat) (t : State) : Prop :=
  let sum := a.toInt + b.toInt + (cin : Int)
  t.main.hl.toNat = (a.toNat + b.toNat + cin) % 65536 ∧
  (t.flag .s = true ↔ 0x8000 ≤ t.main.hl.toNat) ∧ (t.flag .z = true ↔ t.main.hl.toNat = 0) ∧
  (t.flag .h = true ↔ 0xFFF < a.toNat % 0x1000 + b.toNat % 0x1000 + cin) ∧
  (t.flag .pv = true ↔ sum < -32768 ∨ 32767 < sum) ∧ t.flag .n = false ∧
  (t.flag .c = true ↔ 0xFFFF < a.toNat + b.toNat + cin)

theorem adcPairResult_of_adc16 {f : Byte} {a b : Word} {t : State} (hv : t.main.hl = (adc16 f a b).1)
    (hf : t.main.f = (adc16 f a b).2) : AdcPairResult a b (flagOf f .c).toNat t := by
  have hflag (fl : Flag) : t.flag fl = _ := (congrArg (flagOf · fl) hf).trans (flagOf_keepYX ..)
  refine ⟨?value, ?sign, ?zero, ?half, ?overflow, hflag .n, ?carry⟩
  case value =>
    rw [hv]
    exact BitVec.toNat_ofNat ..
  case sign =>
    rw [hv, hflag .s]
    exact getLsbD_fifteen _
  case zero =>
    rw [hv, hflag .z]
    exact beq_zero_iff _
  case half => rw [hflag .h, decide_eq_true_iff]
  case overflow =>
    rw [hflag .pv]
    exact add_overflow_iff (n := 15) a b (flagOf f .c)
  case carry => rw [hflag .c, decide_eq_true_iff]

/-- HL and the six flags after `SBC HL,rp` of `b` from `a` (R232). -/
def SbcPairResult (a b : Word) (cin : Nat) (t : State) : Prop :=
  let diff := a.toInt - b.toInt - (cin : Int)
  (t.main.hl.toNat : Int) = ((a.toNat : Int) - b.toNat - cin) % 65536 ∧
  (t.flag .s = true ↔ 0x8000 ≤ t.main.hl.toNat) ∧ (t.flag .z = true ↔ t.main.hl.toNat = 0) ∧
  (t.flag .h = true ↔ a.toNat % 0x1000 < b.toNat % 0x1000 + cin) ∧
  (t.flag .pv = true ↔ diff < -32768 ∨ 32767 < diff) ∧ t.flag .n = true ∧
  (t.flag .c = true ↔ a.toNat < b.toNat + cin)

theorem sbcPairResult_of_sbc16 {f : Byte} {a b : Word} {t : State} (hv : t.main.hl = (sbc16 f a b).1)
    (hf : t.main.f = (sbc16 f a b).2) : SbcPairResult a b (flagOf f .c).toNat t := by
  have hflag (fl : Flag) : t.flag fl = _ := (congrArg (flagOf · fl) hf).trans (flagOf_keepYX ..)
  refine ⟨?value, ?sign, ?zero, ?half, ?overflow, hflag .n, ?carry⟩
  case value =>
    rw [hv]
    exact toNat_ofInt_word _
  case sign =>
    rw [hv, hflag .s]
    exact getLsbD_fifteen _
  case zero =>
    rw [hv, hflag .z]
    exact beq_zero_iff _
  case half =>
    rw [hflag .h, decide_eq_true_iff]
    omega
  case overflow =>
    rw [hflag .pv]
    exact sub_overflow_iff (n := 15) a b (flagOf f .c)
  case carry =>
    rw [hflag .c, decide_eq_true_iff]
    omega

/-- Settles O24: the exact sum or difference, narrowed, and the flags of its carries, sign and overflow. -/
theorem pairArithmetic_spec : Obligations.PairArithmetic := by
  refine ⟨fun rp => ?addHl, fun x rp => ?addXy, fun rp => ?adc, fun rp => ?sbc⟩
  case addHl =>
    refine .of_next _ (fun _ => rfl) (fun s => ⟨?_, add16_flags rfl⟩) fun s =>
      setHl_setF_onlyChanges s _ (flagOf_add16_kept _ _ _)
    rw [setHl_setF_hl]
    exact BitVec.toNat_ofNat ..
  case addXy =>
    refine .of_next _ (fun _ => rfl) (fun s => ⟨?_, add16_flags rfl⟩) fun s =>
      setXy_setF_onlyChanges s x _ (flagOf_add16_kept _ _ _)
    rw [setXy_setF_xy]
    exact BitVec.toNat_ofNat ..
  case adc =>
    exact .of_next _ (fun _ => rfl) (fun s => adcPairResult_of_adc16 (setHl_setF_hl s _ _) rfl) fun s =>
      setHl_setF_onlyChanges s _ flagOf_keepYX_of_not_mem_namedFlags
  case sbc =>
    exact .of_next _ (fun _ => rfl) (fun s => sbcPairResult_of_sbc16 (setHl_setF_hl s _ _) rfl) fun s =>
      setHl_setF_onlyChanges s _ flagOf_keepYX_of_not_mem_namedFlags

/-- Settles O25: one write of the pair, but for SP at its ends. -/
theorem incAndDecPair : Obligations.IncAndDecPair := by
  refine ⟨fun rp => ?incRp, fun rp => ?decRp, fun x => ?incXy, fun x => ?decXy, fun s h => ?incFault, fun s h => ?decFault⟩
  case incRp =>
    refine .of_next (fun s => s.setRp rp (s.rp rp + 1)) (fun s h => ?_) (fun s _ => s.setRp_rp rp _) fun s =>
      s.setRp_onlyChanges rp _
    cases rp with
    | sp => exact if_neg (h rfl)
    | _ => rfl
  case decRp =>
    refine .of_next (fun s => s.setRp rp (s.rp rp - 1)) (fun s h => ?_) (fun s _ => s.setRp_rp rp _) fun s =>
      s.setRp_onlyChanges rp _
    cases rp with
    | sp => exact if_neg (h rfl)
    | _ => rfl
  case incXy => exact .of_next _ (fun _ => rfl) (fun s => s.setXy_xy x _) fun s => s.setXy_onlyChanges x _
  case decXy => exact .of_next _ (fun _ => rfl) (fun s => s.setXy_xy x _) fun s => s.setXy_onlyChanges x _
  case incFault => exact ⟨s.raiseStack, if_pos h, rfl, rfl, trivial, s.raiseStack_onlyChanges⟩
  case decFault => exact ⟨s.raiseStack, if_pos h, rfl, rfl, trivial, s.raiseStack_onlyChanges⟩

/-! ### Digit rotates (R263, R264) -/

theorem valueF_flags {t : State} {f v : Byte} (hf : t.main.f = valueF f v) :
    SignZero t v ∧ EvenParity t v ∧ HalfAndSubtractClear t := by
  have hflag (fl : Flag) : t.flag fl = _ := (congrArg (flagOf · fl) hf).trans (flagOf_keepYX ..)
  exact ⟨signZero_of_flags (hflag .s) (hflag .z), evenParity_of_flag (hflag .pv), hflag .h, hflag .n⟩

theorem toNat_lowDigit (v : Byte) : (v &&& 0x0F).toNat = v.toNat % 16 := by
  rw [BitVec.toNat_and]
  exact Nat.and_two_pow_sub_one_eq_mod v.toNat 4

theorem toNat_highDigit (v : Byte) : (v >>> 4).toNat = v.toNat / 16 := by
  rw [BitVec.toNat_ushiftRight, Nat.shiftRight_eq_div_pow]

/-- Two digits put together. -/
theorem toNat_digits (h l : Byte) (hl : l.toNat < 16) : ((h <<< 4) ||| l).toNat = h.toNat % 16 * 16 + l.toNat := by
  have hshift : (h <<< 4).toNat = 2 ^ 4 * (h.toNat % 16) := by
    rw [BitVec.toNat_shiftLeft, Nat.shiftLeft_eq]
    omega
  rw [BitVec.toNat_or, hshift, ← Nat.two_pow_add_eq_or_of_lt hl]
  omega

/-- The high digit in its place, by its four bits. -/
theorem and_0xF0_eq (v : Byte) : v &&& (0xF0 : Byte) = (v >>> 4) <<< 4 := by
  apply BitVec.eq_of_getLsbD_eq
  intro i hi
  have hmask : (0xF0 : Byte).getLsbD i = !decide (i < 4) := by
    interval_cases i <;> rfl
  rw [BitVec.getLsbD_and, hmask, BitVec.getLsbD_shiftLeft, BitVec.getLsbD_ushiftRight]
  rcases Nat.lt_or_ge i 4 with h | h
  · simp [h]
  · rw [Nat.add_sub_cancel' h]
    simp [hi, Nat.not_lt.2 h]

/-- A new low digit under the high digit of A. -/
theorem toNat_and_0xF0_or (a l : Byte) (hl : l.toNat < 16) : ((a &&& (0xF0 : Byte)) ||| l).toNat = a.toNat / 16 * 16 + l.toNat := by
  rw [and_0xF0_eq, toNat_digits _ _ hl, toNat_highDigit]
  omega

theorem setAF_readByte (s : State) (a f : Byte) (p : Word) : (s.setAF a f).readByte p = s.readByte p := rfl

theorem digitRotate_onlyChanges (s : State) (m a : Byte) :
    OnlyChanges (.byte s.main.hl :: .reg .a :: incFlags) s ((s.writeByte s.main.hl m).setAF a (valueF s.main.f a)) := by
  refine (s.writeByte_onlyChanges s.main.hl m).trans (onlyChanges_setAF (List.mem_cons_self ..) fun fl hfl => ?_)
  exact flagOf_keepYX_of_not_mem_incFlags fl fun h => hfl (List.mem_cons_of_mem _ h)

/-- Settles O29: three digits change places. -/
theorem digitRotates : Obligations.DigitRotates := by
  constructor
  · refine .of_next _ (fun _ => rfl) (fun s => ⟨?_, ?_, valueF_flags rfl⟩) fun s => digitRotate_onlyChanges s _ _
    · rw [setAF_readByte, State.readByte_writeByte_same, toNat_digits, toNat_highDigit, toNat_lowDigit, Nat.mod_mod]
      rw [toNat_highDigit]
      omega
    · refine (toNat_and_0xF0_or _ _ ?_).trans (congrArg _ (toNat_lowDigit _))
      rw [toNat_lowDigit]
      omega
  · refine .of_next _ (fun _ => rfl) (fun s => ⟨?_, ?_, valueF_flags rfl⟩) fun s => digitRotate_onlyChanges s _ _
    · rw [setAF_readByte, State.readByte_writeByte_same, toNat_digits, toNat_lowDigit]
      rw [toNat_lowDigit]
      omega
    · refine (toNat_and_0xF0_or _ _ ?_).trans (congrArg _ (toNat_highDigit _))
      rw [toNat_highDigit]
      omega

end Sys2Proof.Machine

/-! ## Block moves and searches (46_block.md) -/

namespace Sys2Proof.Machine

/-! ### One move, one comparison (R311 to R316) -/

theorem moveStep_hl (s : State) (dir : Dir) : (s.moveStep dir).main.hl = dir.move s.main.hl := pair_hi_lo _

theorem moveStep_de (s : State) (dir : Dir) : (s.moveStep dir).main.de = dir.move s.main.de := pair_hi_lo _

theorem moveStep_bc (s : State) (dir : Dir) : (s.moveStep dir).main.bc = s.main.bc - 1 := pair_hi_lo _

theorem moveStep_readByte (s : State) (dir : Dir) (a : Word) :
    (s.moveStep dir).readByte a = if a = s.main.de then s.readByte s.main.hl else s.readByte a :=
  s.readByte_writeByte s.main.de a (s.readByte s.main.hl)

theorem moveStep_flag (s : State) (dir : Dir) (fl : Flag) :
    (s.moveStep dir).flag fl =
      match fl with
      | .pv => s.main.bc - 1 != 0
      | .h | .n => false
      | fl => s.flag fl := by
  refine (flagOf_keepYX ..).trans ?_
  cases fl <;> rfl

/-- The parts of one move. -/
def moveParts (s : State) : List Part :=
  pairParts .hl ++ pairParts .de ++ pairParts .bc ++ ([.byte s.main.de, .flag .pv, .flag .h, .flag .n] : List Part)

theorem moveStep_onlyChanges (s : State) (dir : Dir) : OnlyChanges (moveParts s) s (s.moveStep dir) := by
  have hbank : OnlyChanges (pairParts .hl ++ pairParts .de ++ pairParts .bc ++ [.flag .pv, .flag .h, .flag .n])
      (s.writeByte s.main.de (s.readByte s.main.hl)) (s.moveStep dir) := by
    refine onlyChanges_setMain (fun r hr => ?_) fun fl hfl => (moveStep_flag s dir fl).trans ?_
    · cases r with
      | a => rfl
      | _ => exact absurd (by decide) hr
    · cases fl with
      | pv | h | n => exact absurd (by decide) hfl
      | s | z | y | x | c => rfl
  refine (s.writeByte_onlyChanges s.main.de (s.readByte s.main.hl)).andThen hbank fun p hp => ?_
  simp only [moveParts, List.mem_append, List.mem_cons, List.not_mem_nil, or_false] at hp ⊢
  tauto

theorem compareStep_hl (s : State) (dir : Dir) : (s.compareStep dir).main.hl = dir.move s.main.hl := pair_hi_lo _

theorem compareStep_bc (s : State) (dir : Dir) : (s.compareStep dir).main.bc = s.main.bc - 1 := pair_hi_lo _

theorem compareStep_flag (s : State) (dir : Dir) (fl : Flag) :
    (s.compareStep dir).flag fl =
      match fl with
      | .s => (s.main.a - s.readByte s.main.hl).getLsbD 7
      | .z => s.main.a - s.readByte s.main.hl == 0
      | .h => decide (s.main.a.toNat % 16 < (s.readByte s.main.hl).toNat % 16)
      | .pv => s.main.bc - 1 != 0
      | .n => true
      | fl => s.flag fl := by
  refine (flagOf_keepYX ..).trans ?_
  cases fl <;> rfl

theorem compareStep_onlyChanges (s : State) (dir : Dir) :
    OnlyChanges (pairParts .hl ++ pairParts .bc ++ incFlags) s (s.compareStep dir) := by
  refine onlyChanges_setMain (fun r hr => ?_) fun fl hfl => (compareStep_flag s dir fl).trans ?_
  · cases r with
    | a | d | e => rfl
    | _ => exact absurd (by decide) hr
  · cases fl with
    | s | z | h | pv | n => exact absurd (by decide) hfl
    | y | x | c => rfl

theorem bne_zero_iff {w : Nat} (v : BitVec w) : (v != 0#w) = true ↔ v ≠ 0#w := bne_iff_ne

theorem toNat_sub_byte (a m : Byte) : ((a - m).toNat : Int) = ((a.toNat : Int) - m.toNat) % 256 := by
  rw [BitVec.toNat_sub]
  omega

section
variable {i : Instr} {dir : Dir} {step : Word → Word} (hstep : ∀ a, dir.move a = step a)
include hstep

theorem does_of_moveStep (he : ∀ s, exec i s = .next (s.moveStep dir)) :
    Does i moveParts fun s t =>
      t.readByte s.main.de = s.readByte s.main.hl ∧ t.main.hl = step s.main.hl ∧ t.main.de = step s.main.de ∧
      t.main.bc = s.main.bc - 1 ∧ (t.flag .pv = true ↔ t.main.bc ≠ 0) ∧ HalfAndSubtractClear t := by
  refine .of_next _ he (fun s => ⟨?_, ?_, ?_, moveStep_bc s dir, ?_, moveStep_flag s dir .h, moveStep_flag s dir .n⟩)
    fun s => moveStep_onlyChanges s dir
  · rw [moveStep_readByte, if_pos rfl]
  · rw [moveStep_hl, hstep]
  · rw [moveStep_de, hstep]
  · rw [moveStep_flag, moveStep_bc]
    exact bne_zero_iff _

theorem does_of_compareStep (he : ∀ s, exec i s = .next (s.compareStep dir)) :
    Does i (fun _ => pairParts .hl ++ pairParts .bc ++ incFlags) fun s t =>
      let a := s.main.a.toNat
      let m := (s.readByte s.main.hl).toNat
      t.main.hl = step s.main.hl ∧ t.main.bc = s.main.bc - 1 ∧ (t.flag .pv = true ↔ t.main.bc ≠ 0) ∧
      (t.flag .z = true ↔ a = m) ∧ (t.flag .s = true ↔ 128 ≤ ((a : Int) - m) % 256) ∧
      (t.flag .h = true ↔ a % 16 < m % 16) ∧ t.flag .n = true := by
  refine .of_next _ he (fun s => ⟨?hl, compareStep_bc s dir, ?pv, ?z, ?s, ?h, compareStep_flag s dir .n⟩) fun s =>
    compareStep_onlyChanges s dir
  case hl => rw [compareStep_hl, hstep]
  case pv =>
    rw [compareStep_flag, compareStep_bc]
    exact bne_zero_iff _
  case z =>
    rw [compareStep_flag, beq_iff_eq, BitVec.toNat_inj]
    exact sub_eq_zero
  case s =>
    rw [compareStep_flag, getLsbD_seven, ← toNat_sub_byte]
    omega
  case h => rw [compareStep_flag, decide_eq_true_iff]

end

/-- Settles O35: each is one `moveStep` or `compareStep`. -/
theorem blockMoveAndCompare : Obligations.BlockMoveAndCompare :=
  ⟨does_of_moveStep (dir := .up) (fun _ => rfl) fun _ => rfl, does_of_moveStep (dir := .down) (fun _ => rfl) fun _ => rfl,
    does_of_compareStep (dir := .up) (fun _ => rfl) fun _ => rfl,
    does_of_compareStep (dir := .down) (fun _ => rfl) fun _ => rfl⟩

/-! ### The repeating forms (R313 to R328) -/

theorem execTimes_succ {i : Instr} {f : State → State} (he : ∀ s, exec i s = .next (f s)) (n : Nat) (s : State) :
    execTimes i (n + 1) s = execTimes i n (f s) := by
  simp only [execTimes, he]

section
variable {rep one : Instr} {stop : State → Bool} {body : State → State} {turns : State → Nat}

/-- A repeat whose body counts the turns down ends within them, where `stop` holds for the first time. -/
theorem repeatUntil_ends (hone : ∀ s, exec one s = .next (body s)) (hpos : ∀ s, 1 ≤ turns s)
    (hnext : ∀ s, stop (body s) = false → turns (body s) + 1 = turns s) (fuel : Nat) (s : State) (hs : turns s ≤ fuel) :
    ∃ n, 1 ≤ n ∧ n ≤ turns s ∧ execTimes one n s = .next (repeatUntil stop body fuel s) ∧
      stop (repeatUntil stop body fuel s) = true ∧
      ∀ k u, 1 ≤ k → k < n → execTimes one k s = .next u → stop u = false := by
  induction fuel generalizing s with
  | zero => exact absurd (hpos s) (by omega)
  | succ fuel ih =>
    cases hb : stop (body s) with
    | true =>
      rw [repeatUntil_stop fuel hb]
      exact ⟨1, le_rfl, hpos s, execTimes_succ hone 0 s, hb, fun k u hk hk' => by omega⟩
    | false =>
      have hcount := hnext s hb
      obtain ⟨n, hn, hle, hexec, hstop, hbefore⟩ := ih (body s) (by omega)
      rw [repeatUntil_again fuel hb]
      refine ⟨n + 1, by omega, by omega, (execTimes_succ hone n s).trans hexec, hstop, fun k u hk hk' hu => ?_⟩
      obtain ⟨k, rfl⟩ : ∃ j, k = j + 1 := ⟨k - 1, by omega⟩
      rw [execTimes_succ hone] at hu
      cases k with
      | zero =>
        cases hu
        exact hb
      | succ k => exact hbefore (k + 1) u (by omega) (by omega) hu

theorem repeats_of_turns {P : State → Prop} {bound : Nat} (hone : ∀ s, exec one s = .next (body s))
    (hrep : ∀ s, exec rep s = .next (repeatUntil stop body bound s)) (hP : ∀ s, stop s = true ↔ P s)
    (hpos : ∀ s, 1 ≤ turns s) (hle : ∀ s, turns s ≤ bound)
    (hnext : ∀ s, stop (body s) = false → turns (body s) + 1 = turns s) : Repeats rep one P bound := by
  intro s
  obtain ⟨n, hn, hn', hexec, hstop, hbefore⟩ := repeatUntil_ends hone hpos hnext bound s (hle s)
  refine ⟨n, _, hn, hn'.trans (hle s), hexec, hrep s, (hP _).1 hstop, fun k u hk hk' hu hu' => ?_⟩
  have := hbefore k u hk hk' hu
  rw [(hP u).2 hu'] at this
  cases this

end

/-- A counter that is not 0 is one more than the counter below it. -/
theorem toNat_pred {w : Nat} {v : BitVec w} (hv : v ≠ 0#w) : (v - 1#w).toNat + 1 = v.toNat := by
  have hpos : 0 < v.toNat := Nat.pos_of_ne_zero fun h => hv (BitVec.eq_of_toNat_eq h)
  have hone : 1#w ≤ v := by
    have := v.isLt
    rw [BitVec.le_def, BitVec.toNat_ofNat]
    exact (Nat.mod_le _ _).trans hpos
  rw [BitVec.toNat_sub_of_le hone, BitVec.toNat_ofNat, Nat.mod_eq_of_lt (by have := v.isLt; omega)]
  omega

/-- The turns left by BC, 65536 where it is 0 (D16). -/
def wordTurns (s : State) : Nat := (s.main.bc - 1).toNat + 1

/-- The turns left by B, 256 where it is 0 (D16). -/
def byteTurns (s : State) : Nat := (s.main.b - 1).toNat + 1

theorem wordTurns_le (s : State) : wordTurns s ≤ 65536 := (s.main.bc - 1).isLt

theorem byteTurns_le (s : State) : byteTurns s ≤ 256 := (s.main.b - 1).isLt

theorem wordTurns_next {s t : State} (hbc : t.main.bc = s.main.bc - 1) (h : t.main.bc ≠ 0) :
    wordTurns t + 1 = wordTurns s := by
  exact congrArg (· + 1) ((toNat_pred h).trans (congrArg BitVec.toNat hbc))

theorem byteTurns_next {s t : State} (hb : t.main.b = s.main.b - 1) (h : t.main.b ≠ 0) :
    byteTurns t + 1 = byteTurns s := by
  exact congrArg (· + 1) ((toNat_pred h).trans (congrArg BitVec.toNat hb))

theorem repeats_move {rep one : Instr} (dir : Dir) (hone : ∀ s, exec one s = .next (s.moveStep dir))
    (hrep : ∀ s, exec rep s = .next (repeatUntil moveDone (·.moveStep dir) wordRepeats s)) :
    Repeats rep one (fun t => t.main.bc = 0) 65536 :=
  repeats_of_turns hone hrep (fun _ => beq_iff_eq) (fun _ => Nat.succ_pos _) wordTurns_le fun s h =>
    wordTurns_next (moveStep_bc s dir) fun h0 => by simp [moveDone, h0] at h

theorem repeats_compare {rep one : Instr} (dir : Dir) (hone : ∀ s, exec one s = .next (s.compareStep dir))
    (hrep : ∀ s, exec rep s = .next (repeatUntil compareDone (·.compareStep dir) wordRepeats s)) :
    Repeats rep one (fun t => t.main.bc = 0 ∨ t.flag .z = true) 65536 :=
  repeats_of_turns hone hrep (fun s => by simp [compareDone]) (fun _ => Nat.succ_pos _) wordTurns_le fun s h =>
    wordTurns_next (compareStep_bc s dir) fun h0 => by simp [compareDone, h0] at h

theorem repeats_io {rep one : Instr} {body : State → State} (hb : ∀ s, (body s).main.b = s.main.b - 1)
    (hone : ∀ s, exec one s = .next (body s))
    (hrep : ∀ s, exec rep s = .next (repeatUntil ioDone body byteRepeats s)) :
    Repeats rep one (fun t => t.main.b = 0) 256 :=
  repeats_of_turns hone hrep (fun _ => beq_iff_eq) (fun _ => Nat.succ_pos _) byteTurns_le fun s h =>
    byteTurns_next (hb s) fun h0 => by simp [ioDone, h0] at h

theorem inStep_b (s : State) (dir : Dir) : (s.inStep dir).main.b = s.main.b - 1 :=
  congrArg (fun k => Bank.b k - 1) (portRead_main s s.main.c)

theorem outStep_b (s : State) (dir : Dir) : (s.outStep dir).main.b = s.main.b - 1 :=
  congrArg (fun k => Bank.b k - 1) (portWrite_main s s.main.c _)

/-- Settles O37: the counter gives the number of turns, and the bound is its largest value. -/
theorem repeatingForms : Obligations.RepeatingForms :=
  ⟨repeats_move .up (fun _ => rfl) fun _ => rfl, repeats_move .down (fun _ => rfl) fun _ => rfl,
    repeats_compare .up (fun _ => rfl) fun _ => rfl, repeats_compare .down (fun _ => rfl) fun _ => rfl,
    repeats_io (inStep_b · .up) (fun _ => rfl) fun _ => rfl,
    repeats_io (inStep_b · .down) (fun _ => rfl) fun _ => rfl,
    repeats_io (outStep_b · .up) (fun _ => rfl) fun _ => rfl,
    repeats_io (outStep_b · .down) (fun _ => rfl) fun _ => rfl⟩

end Sys2Proof.Machine

/-! ## LDIR copies (46_block.md R313), ports (47_io_system.md, 20_memory.md R71 to R73) -/

namespace Sys2Proof.Machine

/-! ### LDIR (P7) -/

/-- The parts of `n` moves upwards from `s`. -/
def copyParts (n : Nat) (s : State) : List Part :=
  pairParts .hl ++ pairParts .de ++ pairParts .bc ++ ([.flag .pv, .flag .h, .flag .n] : List Part) ++
    ((List.range n).map fun k => Part.byte (s.main.de + BitVec.ofNat 16 k))

/-- `n` bytes were copied upwards from HL to DE, and nothing else of memory changed. -/
def Copied (n : Nat) (s t : State) : Prop :=
  t.main.bc = 0 ∧ t.main.hl = s.main.hl + BitVec.ofNat 16 n ∧ t.main.de = s.main.de + BitVec.ofNat 16 n ∧
  t.flag .pv = false ∧
  (∀ k < n, t.readByte (s.main.de + BitVec.ofNat 16 k) = s.readByte (s.main.hl + BitVec.ofNat 16 k)) ∧
  OnlyChanges (copyParts n s) s t

/-- The source and the destination of `n` bytes have no address in common. -/
def NoOverlap (n : Nat) (s : State) : Prop :=
  ∀ j k, j < n → k < n → s.main.hl + BitVec.ofNat 16 j ≠ s.main.de + BitVec.ofNat 16 k

theorem byte_mem_copyParts {n : Nat} {s : State} {a : Word} :
    Part.byte a ∈ copyParts n s ↔ ∃ k < n, a = s.main.de + BitVec.ofNat 16 k := by
  simp [copyParts, pairParts, eq_comm]

theorem moveParts_subset_copyParts (n : Nat) (s : State) : ∀ p ∈ moveParts s, p ∈ copyParts (n + 1) s := by
  intro p hp
  have hfirst : Part.byte s.main.de ∈ copyParts (n + 1) s := byte_mem_copyParts.2 ⟨0, n.succ_pos, by simp⟩
  simp only [moveParts, List.mem_append, List.mem_cons, List.not_mem_nil, or_false] at hp
  rcases hp with hp | rfl | hp
  · exact List.mem_append_left _ (List.mem_append_left _ (by simpa [or_assoc] using hp))
  · exact hfirst
  · exact List.mem_append_left _ (List.mem_append_right _ (by simpa using hp))

/-- What the moves after the first one change, the moves from the first one on change. -/
theorem copyParts_moveStep_subset (n : Nat) (s : State) : ∀ p ∈ copyParts n (s.moveStep .up), p ∈ copyParts (n + 1) s := by
  intro p hp
  rcases List.mem_append.1 hp with hp | hp
  · exact List.mem_append_left _ hp
  · obtain ⟨k, hk, rfl⟩ := List.mem_map.1 hp
    refine byte_mem_copyParts.2 ⟨k + 1, Nat.succ_lt_succ (List.mem_range.1 hk), ?_⟩
    rw [moveStep_de, word_add_succ]
    rfl

theorem noOverlap_moveStep {n : Nat} {s : State} (h : NoOverlap (n + 1) s) : NoOverlap n (s.moveStep .up) := by
  intro j k hj hk
  have := h (j + 1) (k + 1) (Nat.succ_lt_succ hj) (Nat.succ_lt_succ hk)
  rw [word_add_succ, word_add_succ] at this
  rwa [moveStep_hl, moveStep_de]

/-- The last move. -/
theorem copied_one {s : State} (hbc : s.main.bc - 1 = 0) : Copied 1 s (s.moveStep .up) := by
  refine ⟨(moveStep_bc s .up).trans hbc, moveStep_hl s .up, moveStep_de s .up, ?_, fun k hk => ?_, ?_⟩
  · rw [moveStep_flag, hbc]
    rfl
  · obtain rfl : k = 0 := by omega
    simp [moveStep_readByte]
  · exact (moveStep_onlyChanges s .up).mono (moveParts_subset_copyParts 0 s)

/-- A move and then `n` more. -/
theorem copied_succ {n : Nat} {s t : State} (hn : n < 65535) (hapart : NoOverlap (n + 1) s)
    (h : Copied n (s.moveStep .up) t) : Copied (n + 1) s t := by
  obtain ⟨hbc, hhl, hde, hpv, hbytes, hframe⟩ := h
  refine ⟨hbc, ?_, ?_, hpv, fun k hk => ?_, ?_⟩
  · rw [hhl, moveStep_hl, word_add_succ]
    rfl
  · rw [hde, moveStep_de, word_add_succ]
    rfl
  · cases k with
    | zero =>
      have hfirst : Part.byte s.main.de ∉ copyParts n (s.moveStep .up) := by
        rw [byte_mem_copyParts]
        rintro ⟨k, hk, heq⟩
        rw [moveStep_de, Dir.move, ← word_add_succ] at heq
        have hzero : s.main.de + BitVec.ofNat 16 0 = s.main.de + BitVec.ofNat 16 (k + 1) := by simpa using heq
        exact absurd (word_add_injective (by omega) (by omega) hzero) (by omega)
      have hkept : t.readByte s.main.de = (s.moveStep .up).readByte s.main.de := hframe _ hfirst
      simp [hkept, moveStep_readByte]
    | succ k =>
      have hk' := hbytes k (by omega)
      rw [moveStep_de, moveStep_hl, Dir.move, Dir.move, ← word_add_succ, ← word_add_succ, moveStep_readByte, if_neg] at hk'
      · exact hk'
      · simpa using hapart (k + 1) 0 hk n.succ_pos
  · exact (moveStep_onlyChanges s .up).andThen hframe fun p hp =>
      hp.elim (moveParts_subset_copyParts n s p) (copyParts_moveStep_subset n s p)

theorem toNat_bc_pred {s : State} {n : Nat} (h : s.main.bc.toNat = n + 1) : (s.main.bc - 1).toNat = n := by
  have hne : s.main.bc ≠ 0 := fun h0 => by simp [h0] at h
  exact Nat.succ_injective ((toNat_pred hne).trans h)

theorem copied_repeatUntil (n fuel : Nat) {s : State} (hfuel : n ≤ fuel) (hbc : s.main.bc.toNat = n + 1)
    (hapart : NoOverlap (n + 1) s) : Copied (n + 1) s (repeatUntil moveDone (·.moveStep .up) (fuel + 1) s) := by
  have hcount := toNat_bc_pred hbc
  induction n generalizing fuel s with
  | zero =>
    have hzero : s.main.bc - 1 = 0 := BitVec.eq_of_toNat_eq hcount
    rw [repeatUntil_stop fuel (by rw [moveDone, moveStep_bc, hzero]; rfl)]
    exact copied_one hzero
  | succ n ih =>
    have hmore : moveDone (s.moveStep .up) = false := by
      rw [moveDone, moveStep_bc, beq_eq_false_iff_ne]
      intro h0
      rw [h0] at hcount
      cases hcount
    have hlt := s.main.bc.isLt
    have hbc' : (s.moveStep .up).main.bc.toNat = n + 1 := by rw [moveStep_bc, hcount]
    obtain ⟨fuel, rfl⟩ : ∃ f, fuel = f + 1 := ⟨fuel - 1, by omega⟩
    rw [repeatUntil_again _ hmore]
    have h := ih fuel (by omega) hbc' (noOverlap_moveStep hapart) (toNat_bc_pred hbc')
    exact copied_succ (by omega) hapart h

/-- Settles O38: by induction on the counter; the bytes still to be read are not among those already written. -/
theorem ldirCopies : Obligations.LdirCopies := by
  intro s n hbc hn hapart
  obtain ⟨n, rfl⟩ : ∃ m, n = m + 1 := ⟨n - 1, by omega⟩
  have hfuel : n ≤ 65535 := by
    have := s.main.bc.isLt
    omega
  exact ⟨_, rfl, copied_repeatUntil n 65535 hfuel hbc hapart⟩

/-! ### Port calls (R71, R72, R485) -/

/-- What a handler call writes reads the same in both states. -/
def SameCall (t u : State) : Prop :=
  u.pending = t.pending ∧ u.halted = t.halted ∧ u.peripheral = t.peripheral ∧ u.replies = t.replies

section
variable {s t u : State} (hsame : SameCall t u)
include hsame

theorem CalledHandler.of_sameCall {answer : HandlerReply} {v : Byte} (h : CalledHandler answer v s t) :
    CalledHandler answer v s u := by
  obtain ⟨r, hreplies, hv, hperipheral, hpending, hhalted⟩ := h
  obtain ⟨h1, h2, h3, h4⟩ := hsame
  exact ⟨r, h4 ▸ hreplies, hv, h3.trans hperipheral, h1.trans hpending, h2.trans hhalted⟩

theorem CalledNone.of_sameCall (h : CalledNone s t) : CalledNone s u := by
  obtain ⟨hpending, hhalted, hperipheral, hreplies⟩ := h
  obtain ⟨h1, h2, h3, h4⟩ := hsame
  exact ⟨h1.trans hpending, h2.trans hhalted, h3.trans hperipheral, h4.trans hreplies⟩

theorem ReadsPort.of_sameCall {p v : Byte} (hevents : u.events = t.events) (h : ReadsPort p v s t) :
    ReadsPort p v s u := by
  obtain ⟨hev, hmapped, hunmapped⟩ := h
  exact ⟨hevents.trans hev, fun fn hfn => .of_sameCall hsame (hmapped fn hfn),
    fun hnone => (hunmapped hnone).imp_right (.of_sameCall hsame)⟩

theorem WritesPort.of_sameCall {p v : Byte} (hevents : u.events = t.events) (h : WritesPort p v s t) :
    WritesPort p v s u := by
  obtain ⟨hev, hmapped, hunmapped⟩ := h
  exact ⟨hevents.trans hev, fun fn hfn => (hmapped fn hfn).imp fun w => .of_sameCall hsame,
    fun hnone => .of_sameCall hsame (hunmapped hnone)⟩

end

theorem calledHandler_callHandler (s : State) (answer : HandlerReply) :
    CalledHandler answer (s.callHandler answer).1 s (s.callHandler answer).2 := by
  rw [s.callHandler_eq]
  refine ⟨s.replies.headD answer, ?_, rfl, rfl, rfl, rfl⟩
  cases hreplies : s.replies with
  | nil => exact .inr ⟨rfl, rfl, rfl⟩
  | cons r rest => exact .inl ⟨rest, rfl, rfl⟩

theorem callHandler_events (s : State) (answer : HandlerReply) : (s.callHandler answer).2.events = s.events := by
  rw [s.callHandler_eq]

theorem readsPort_portRead (s : State) (p : Byte) : ReadsPort p (s.portRead p).1 s (s.portRead p).2 := by
  cases hlookup : s.cfg.inPorts.lookup p with
  | none =>
    rw [s.portRead_unmapped p hlookup]
    exact ⟨rfl, fun fn hfn => by simp [hlookup] at hfn, fun _ => ⟨rfl, rfl, rfl, rfl, rfl⟩⟩
  | some fn =>
    rw [s.portRead_mapped p fn hlookup]
    refine ⟨congrArg (· ++ [_]) (callHandler_events s _), fun fn' hfn => ?_, fun hnone => by simp [hlookup] at hnone⟩
    cases hlookup.symm.trans hfn
    exact .of_sameCall ⟨rfl, rfl, rfl, rfl⟩ (calledHandler_callHandler s _)

theorem writesPort_portWrite (s : State) (p v : Byte) : WritesPort p v s (s.portWrite p v) := by
  cases hlookup : s.cfg.outPorts.lookup p with
  | none =>
    rw [s.portWrite_unmapped p v hlookup]
    exact ⟨rfl, fun fn hfn => by simp [hlookup] at hfn, fun _ => ⟨rfl, rfl, rfl, rfl⟩⟩
  | some fn =>
    rw [s.portWrite_mapped p v fn hlookup]
    refine ⟨callHandler_events _ _, fun fn' hfn => ?_, fun hnone => by simp [hlookup] at hnone⟩
    cases hlookup.symm.trans hfn
    exact ⟨_, calledHandler_callHandler (s.record (.portOut p v)) _⟩

theorem portRead_onlyChanges (s : State) (p : Byte) : OnlyChanges portParts s (s.portRead p).2 := by
  rw [s.portRead_eq p]
  intro q hq
  cases q with
  | events | pending | halted | peripherals => exact absurd (by decide) hq
  | tags => exact ⟨rfl, rfl⟩
  | _ => rfl

theorem portWrite_onlyChanges (s : State) (p v : Byte) : OnlyChanges portParts s (s.portWrite p v) := by
  rw [s.portWrite_eq p v]
  intro q hq
  cases q with
  | events | pending | halted | peripherals => exact absurd (by decide) hq
  | tags => exact ⟨rfl, rfl⟩
  | _ => rfl

end Sys2Proof.Machine

/-! ## Port input and output (46_block.md R319 to R324, 47_io_system.md R340 to R343) -/

namespace Sys2Proof.Machine

/-! ### One block input, one block output -/

theorem ioAdvance_hl (s : State) (dir : Dir) : (s.ioAdvance dir).main.hl = dir.move s.main.hl := pair_hi_lo _

theorem ioAdvance_b (s : State) (dir : Dir) : (s.ioAdvance dir).main.b = s.main.b - 1 := rfl

theorem ioAdvance_flag (s : State) (dir : Dir) (fl : Flag) :
    (s.ioAdvance dir).flag fl =
      match fl with
      | .z => s.main.b - 1 == 0
      | .n => true
      | fl => s.flag fl := by
  refine (flagOf_keepYX ..).trans ?_
  cases fl <;> rfl

theorem ioAdvance_onlyChanges (s : State) (dir : Dir) :
    OnlyChanges (pairParts .hl ++ [.reg .b, .flag .z, .flag .n]) s (s.ioAdvance dir) := by
  refine onlyChanges_setMain (fun r hr => ?_) fun fl hfl => (ioAdvance_flag s dir fl).trans ?_
  · cases r with
    | b | h | l => exact absurd (by decide) hr
    | _ => rfl
  · cases fl with
    | z | n => exact absurd (by decide) hfl
    | s | h | pv | y | x | c => rfl

/-- HL stepped and B counted down, with the flags of the count. -/
def CountedIo (step : Word → Word) (s t : State) : Prop :=
  t.main.hl = step s.main.hl ∧ t.main.b = s.main.b - 1 ∧ (t.flag .z = true ↔ t.main.b = 0) ∧ t.flag .n = true

theorem countedIo_ioAdvance {dir : Dir} {step : Word → Word} (hstep : ∀ a, dir.move a = step a) {s t : State}
    (hmain : t.main = s.main) : CountedIo step s (t.ioAdvance dir) := by
  refine ⟨?_, ?_, ?_, ioAdvance_flag t dir .n⟩
  · rw [ioAdvance_hl, hmain, hstep]
  · rw [ioAdvance_b, hmain]
  · rw [ioAdvance_flag, ioAdvance_b]
    exact beq_iff_eq

/-- The parts of block input and output besides memory. -/
def ioParts : List Part := pairParts .hl ++ ([.reg .b, .flag .z, .flag .n] : List Part) ++ portParts

section
variable {i : Instr} {dir : Dir} {step : Word → Word} (hstep : ∀ a, dir.move a = step a)
include hstep

theorem does_of_inStep (he : ∀ s, exec i s = .next (s.inStep dir)) :
    Does i (fun s => .byte s.main.hl :: ioParts) fun s t =>
      ReadsPort s.main.c (t.readByte s.main.hl) s t ∧ CountedIo step s t := by
  refine .of_next _ he (fun s => ⟨?_, countedIo_ioAdvance hstep (portRead_main s s.main.c)⟩) fun s => ?_
  · have hread : (s.inStep dir).readByte s.main.hl = (s.portRead s.main.c).1 :=
      State.readByte_writeByte_same _ s.main.hl _
    rw [hread]
    exact .of_sameCall ⟨rfl, rfl, rfl, rfl⟩ rfl (readsPort_portRead s s.main.c)
  · refine ((portRead_onlyChanges s s.main.c).trans (State.writeByte_onlyChanges _ s.main.hl _)).andThen
      (ioAdvance_onlyChanges _ dir) fun p hp => ?_
    simp only [ioParts, List.mem_append, List.mem_cons, List.not_mem_nil, or_false] at hp ⊢
    tauto

theorem does_of_outStep (he : ∀ s, exec i s = .next (s.outStep dir)) :
    Does i (fun _ => ioParts) fun s t => WritesPort s.main.c (s.readByte s.main.hl) s t ∧ CountedIo step s t := by
  refine .of_next _ he (fun s => ⟨?_, countedIo_ioAdvance hstep (portWrite_main s s.main.c _)⟩) fun s => ?_
  · exact .of_sameCall ⟨rfl, rfl, rfl, rfl⟩ rfl (writesPort_portWrite s s.main.c (s.readByte s.main.hl))
  · refine (portWrite_onlyChanges s s.main.c _).andThen (ioAdvance_onlyChanges _ dir) fun p hp => ?_
    simp only [ioParts, List.mem_append] at hp ⊢
    tauto

end

/-- Settles O36: each is one port call and one `ioAdvance`. -/
theorem blockInputOutput : Obligations.BlockInputOutput :=
  ⟨does_of_inStep (dir := .up) (fun _ => rfl) fun _ => rfl, does_of_inStep (dir := .down) (fun _ => rfl) fun _ => rfl,
    does_of_outStep (dir := .up) (fun _ => rfl) fun _ => rfl, does_of_outStep (dir := .down) (fun _ => rfl) fun _ => rfl⟩

/-! ### IN and OUT -/

theorem lookup_filter_ne {table : List (Byte × Nat)} {p q : Byte} (hq : q ≠ p) :
    (table.filter fun entry => entry.1 != p).lookup q = table.lookup q := by
  induction table with
  | nil => rfl
  | cons entry table ih =>
    obtain ⟨port, fn⟩ := entry
    by_cases hport : port = p
    · subst hport
      have hne : (q == port) = false := beq_eq_false_iff_ne.2 hq
      simp [List.lookup, hne, ih]
    · simp [List.lookup, hport, ih]

theorem lastRegistrationWins_registered (p : Byte) (fn : Nat) (table : List (Byte × Nat)) :
    LastRegistrationWins p fn table (registered table p fn) := by
  intro q
  by_cases hq : q = p
  · simp [registered, hq]
  · have hne : (q == p) = false := beq_eq_false_iff_ne.2 hq
    rw [if_neg hq, registered, List.lookup, hne]
    exact lookup_filter_ne hq

theorem registered_onlyChanges {s t : State} (h : t = { s with cfg := t.cfg }) : OnlyChanges [.config] s t := by
  rw [h]
  intro p hp
  cases p with
  | config => exact absurd (by decide) hp
  | tags | peripherals => exact ⟨rfl, rfl⟩
  | _ => rfl

/-- `IN r,(C)`: one port call, and the byte's flags. -/
theorem does_inRC (r : Reg8) :
    Does (.inRC r) (fun _ => .reg r :: incFlags ++ portParts) fun s t =>
      ReadsPort s.main.c (t.reg r) s t ∧ SignZero t (t.reg r) ∧ EvenParity t (t.reg r) ∧ HalfAndSubtractClear t := by
  have hreg (s : State) (v f : Byte) : ((s.setReg r v).setF f).reg r = v := (setF_reg _ f r).trans (s.setReg_reg r v)
  refine .of_next (fun s => ((s.portRead s.main.c).2.setReg r (s.portRead s.main.c).1).setF
    (valueF s.main.f (s.portRead s.main.c).1)) (fun _ => rfl) (fun s => ?_) fun s => ?_
  · rw [hreg]
    exact ⟨.of_sameCall ⟨rfl, rfl, rfl, rfl⟩ rfl (readsPort_portRead s s.main.c), valueF_flags rfl⟩
  · have hf : ((s.portRead s.main.c).2.setReg r (s.portRead s.main.c).1).main.f = s.main.f :=
      (Bank.set_f _ r _).trans (congrArg Bank.f (portRead_main s s.main.c))
    refine ((portRead_onlyChanges s s.main.c).trans (State.setReg_onlyChanges _ r _)).andThen
      (State.setF_onlyChanges (parts := incFlags) _ fun fl hfl => ?_) fun p hp => ?_
    · exact (flagOf_keepYX_of_not_mem_incFlags fl hfl).trans (congrArg (flagOf · fl) hf).symm
    · simp only [List.mem_append, List.mem_cons, List.not_mem_nil, or_false] at hp ⊢
      tauto

/-- Settles O39: each is one port call; what it reads goes to a register, with the flags of the byte where R342 has them. -/
theorem portInputOutput : Obligations.PortInputOutput := by
  refine ⟨fun n => ?inAN, fun n => ?outNA, fun r => ?inRC, fun r => ?outCR, fun s p fn => ?registration⟩
  case inAN =>
    refine .of_next (fun s => (s.portRead n).2.setA (s.portRead n).1) (fun _ => rfl) (fun s => ?_) fun s => ?_
    · exact .of_sameCall ⟨rfl, rfl, rfl, rfl⟩ rfl (readsPort_portRead s n)
    · exact (portRead_onlyChanges s n).andThen (State.setA_onlyChanges _ _) fun p hp => by simpa [or_comm] using hp
  case outNA =>
    exact .of_next _ (fun _ => rfl) (fun s => writesPort_portWrite s n s.main.a) fun s => portWrite_onlyChanges s n _
  case inRC => exact does_inRC r
  case outCR =>
    exact .of_next _ (fun _ => rfl) (fun s => writesPort_portWrite s s.main.c (s.reg r)) fun s =>
      portWrite_onlyChanges s s.main.c _
  case registration =>
    refine ⟨lastRegistrationWins_registered p fn _, lastRegistrationWins_registered p fn _, rfl, rfl, ?_⟩
    simp only [List.forall_mem_cons, List.not_mem_nil, false_implies, implies_true, and_true]
    exact ⟨⟨rfl, registered_onlyChanges rfl⟩, rfl, registered_onlyChanges rfl⟩

end Sys2Proof.Machine

/-! ## The assembler's selection and image (49_assembler.md) -/

namespace Sys2Proof.Machine

/-! ### The shape of what is selected (R387, R411) -/

/-- Both are instructions the assembler emits, of the same length. -/
def SameShape (i j : Instr) : Prop := neverEmitted i = false ∧ (encode i).length = (encode j).length

/-- What the two selections give has the same shape, where both give something. -/
def SelectAlike (r r' : Except AsmFault Instr) : Prop := ∀ i j, r = .ok i → r' = .ok j → SameShape i j

theorem selectAlike_ok {i j : Instr} (h : SameShape i j) : SelectAlike (.ok i) (.ok j) := by
  rintro _ _ ⟨⟩ ⟨⟩
  exact h

theorem selectAlike_error {f : AsmFault} {r : Except AsmFault Instr} : SelectAlike (.error f) r := nofun

theorem selectAlike_map {α : Type} {x x' : Except AsmFault α} {f g : α → Instr} (h : ∀ a b, SameShape (f a) (g b)) :
    SelectAlike (x.map f) (x'.map g) := by
  cases x with
  | error => exact selectAlike_error
  | ok a =>
    cases x' with
    | error => exact nofun
    | ok b => exact selectAlike_ok (h a b)

theorem selectAlike_bind {α : Type} {x x' : Except AsmFault α} {f g : α → Except AsmFault Instr}
    (h : ∀ a b, SelectAlike (f a) (g b)) : SelectAlike (x >>= f) (x' >>= g) := by
  cases x with
  | error => exact selectAlike_error
  | ok a =>
    cases x' with
    | error => exact nofun
    | ok b => exact h a b

section
variable (env env' : AsmEnv)

theorem selectAlike_onPlace (p : AsmPlace) {onReg onReg' : Reg8 → Instr} {onHl onHl' : Instr}
    {onIdx onIdx' : Idx → Byte → Instr} (hreg : ∀ r, SameShape (onReg r) (onReg' r)) (hhl : SameShape onHl onHl')
    (hidx : ∀ x d d', SameShape (onIdx x d) (onIdx' x d')) :
    SelectAlike (env.onPlace p onReg onHl onIdx) (env'.onPlace p onReg' onHl' onIdx') := by
  cases p with
  | reg r => exact selectAlike_ok (hreg r)
  | hl => exact selectAlike_ok hhl
  | idx x minus e => exact selectAlike_map (hidx x)

theorem selectAlike_ldPlace (dst src : AsmOperand) : SelectAlike (env.ldPlace dst src) (env'.ldPlace dst src) := by
  unfold AsmEnv.ldPlace
  split
  case h_1 => exact selectAlike_onPlace env env' _ (fun _ => ⟨rfl, rfl⟩) ⟨rfl, rfl⟩ fun _ _ _ => ⟨rfl, rfl⟩
  case h_2 => exact selectAlike_ok ⟨rfl, rfl⟩
  case h_6 => exact selectAlike_bind fun _ _ => selectAlike_bind fun _ _ => selectAlike_ok ⟨rfl, rfl⟩
  case h_7 => exact selectAlike_error
  all_goals exact selectAlike_map fun _ _ => ⟨rfl, rfl⟩

theorem selectAlike_ld (dst src : AsmOperand) : SelectAlike (env.ld dst src) (env'.ld dst src) := by
  unfold AsmEnv.ld
  split
  case h_14 rp e hne =>
    cases rp with
    | hl => exact (hne rfl).elim
    | _ => exact selectAlike_map fun _ _ => ⟨rfl, rfl⟩
  case h_17 e rp hne =>
    cases rp with
    | hl => exact (hne rfl).elim
    | _ => exact selectAlike_map fun _ _ => ⟨rfl, rfl⟩
  case h_21 => exact selectAlike_ldPlace env env' dst src
  case h_1 | h_2 | h_4 | h_5 | h_7 | h_8 | h_9 | h_10 | h_19 | h_20 => exact selectAlike_ok ⟨rfl, rfl⟩
  all_goals exact selectAlike_map fun _ _ => ⟨rfl, rfl⟩

/-! #### Arithmetic, rotates, bits (R406 to R408) -/

theorem sameShape_aluR (y : Nat) (r : Reg8) : SameShape (aluR y r) (aluR y r) := by
  unfold aluR
  split <;> exact ⟨rfl, rfl⟩

theorem sameShape_aluIndHl (y : Nat) : SameShape (aluIndHl y) (aluIndHl y) := by
  unfold aluIndHl
  split <;> exact ⟨rfl, rfl⟩

theorem sameShape_aluN (y : Nat) (n n' : Byte) : SameShape (aluN y n) (aluN y n') := by
  unfold aluN
  split <;> exact ⟨rfl, rfl⟩

theorem sameShape_aluIdx (y : Nat) (x : Idx) (d d' : Byte) : SameShape (aluIdx y x d) (aluIdx y x d') := by
  unfold aluIdx
  split <;> exact ⟨rfl, rfl⟩

theorem selectAlike_accumulator (y : Nat) (src : AsmOperand) :
    SelectAlike (env.accumulator y src) (env'.accumulator y src) := by
  unfold AsmEnv.accumulator
  split
  case h_1 =>
    exact selectAlike_onPlace env env' _ (sameShape_aluR y) (sameShape_aluIndHl y) (sameShape_aluIdx y)
  case h_2 => exact selectAlike_map (sameShape_aluN y)
  case h_3 => exact selectAlike_error

theorem sameShape_pairArithmetic {mnemonic : String} {dst src : AsmOperand} {i : Instr}
    (h : pairArithmetic mnemonic dst src = some i) : SameShape i i := by
  unfold pairArithmetic at h
  split at h
  case h_4 =>
    obtain ⟨rp, -, rfl⟩ := Option.map_eq_some_iff.1 h
    exact ⟨rfl, rfl⟩
  case h_5 => cases h
  all_goals
    cases h
    exact ⟨rfl, rfl⟩

theorem selectAlike_arithmetic (mnemonic : String) (y : Nat) (ops : List AsmOperand) :
    SelectAlike (env.arithmetic mnemonic y ops) (env'.arithmetic mnemonic y ops) := by
  unfold AsmEnv.arithmetic
  split
  case h_1 src => exact selectAlike_accumulator env env' y src
  case h_2 dst src =>
    split
    case h_1 h => exact selectAlike_ok (sameShape_pairArithmetic h)
    case h_2 => exact selectAlike_accumulator env env' y src
    case h_3 => exact selectAlike_error
  case h_3 => exact selectAlike_error

theorem selectAlike_incDec {onReg : Reg8 → Instr} {onHl : Instr} {onIdx : Idx → Byte → Instr} {onRp : Rp → Instr}
    {onXy : Idx → Instr} (hreg : ∀ r, SameShape (onReg r) (onReg r)) (hhl : SameShape onHl onHl)
    (hidx : ∀ x d d', SameShape (onIdx x d) (onIdx x d')) (hrp : ∀ rp, SameShape (onRp rp) (onRp rp))
    (hxy : ∀ x, SameShape (onXy x) (onXy x)) (ops : List AsmOperand) :
    SelectAlike (env.incDec onReg onHl onIdx onRp onXy ops) (env'.incDec onReg onHl onIdx onRp onXy ops) := by
  unfold AsmEnv.incDec
  split
  case h_1 rp => exact selectAlike_ok (hrp rp)
  case h_2 x => exact selectAlike_ok (hxy x)
  case h_3 =>
    split
    · exact selectAlike_onPlace env env' _ hreg hhl hidx
    · exact selectAlike_error
  case h_4 => exact selectAlike_error

theorem rotCode_ne {mnemonic : String} {y : Nat} (h : rotCode mnemonic = some y) : y ≠ 6 := by
  unfold rotCode at h
  split at h <;> cases h <;> decide

theorem selectAlike_rotShift {y : Nat} (hy : y ≠ 6) (ops : List AsmOperand) :
    SelectAlike (env.rotShift y ops) (env'.rotShift y ops) := by
  unfold AsmEnv.rotShift
  split
  case h_1 =>
    split
    · refine selectAlike_onPlace env env' _ (fun r => ?_) ?_ fun x d d' => ?_
      · unfold rotR
        split
        case h_7 => exact (hy rfl).elim
        all_goals exact ⟨rfl, rfl⟩
      · unfold rotIndHl
        split
        case h_7 => exact (hy rfl).elim
        all_goals exact ⟨rfl, rfl⟩
      · unfold rotIdx
        split
        case h_7 => exact (hy rfl).elim
        all_goals exact ⟨rfl, rfl⟩
    · exact selectAlike_error
  case h_2 => exact selectAlike_error

theorem selectAlike_bitOp {onReg : Fin 8 → Reg8 → Instr} {onHl : Fin 8 → Instr} {onIdx : Fin 8 → Idx → Byte → Instr}
    (hreg : ∀ b b' r, SameShape (onReg b r) (onReg b' r)) (hhl : ∀ b b', SameShape (onHl b) (onHl b'))
    (hidx : ∀ b b' x d d', SameShape (onIdx b x d) (onIdx b' x d')) (ops : List AsmOperand) :
    SelectAlike (env.bitOp onReg onHl onIdx ops) (env'.bitOp onReg onHl onIdx ops) := by
  unfold AsmEnv.bitOp
  split
  case h_1 =>
    refine selectAlike_bind fun b b' => ?_
    split
    · exact selectAlike_onPlace env env' _ (hreg b b') (hhl b b') (hidx b b')
    · exact selectAlike_error
  case h_2 => exact selectAlike_error

/-! #### Stack, exchange, control flow, input and output (R405, R409, R410) -/

theorem selectAlike_stackOp {onRp2 : Rp2 → Instr} {onXy : Idx → Instr} (hrp2 : ∀ q, SameShape (onRp2 q) (onRp2 q))
    (hxy : ∀ x, SameShape (onXy x) (onXy x)) (ops : List AsmOperand) :
    SelectAlike (stackOp onRp2 onXy ops) (stackOp onRp2 onXy ops) := by
  unfold stackOp
  split
  case h_1 x => exact selectAlike_ok (hxy x)
  case h_2 =>
    split
    · exact selectAlike_ok (hrp2 _)
    · exact selectAlike_error
  case h_3 => exact selectAlike_error

theorem selectAlike_exchange (ops : List AsmOperand) : SelectAlike (exchange ops) (exchange ops) := by
  unfold exchange
  split
  case h_5 => exact selectAlike_error
  all_goals exact selectAlike_ok ⟨rfl, rfl⟩

theorem selectAlike_jump (ops : List AsmOperand) : SelectAlike (env.jump ops) (env'.jump ops) := by
  unfold AsmEnv.jump
  split
  case h_1 | h_2 => exact selectAlike_ok ⟨rfl, rfl⟩
  case h_3 | h_4 => exact selectAlike_map fun _ _ => ⟨rfl, rfl⟩
  case h_5 => exact selectAlike_error

theorem selectAlike_relJump (ops : List AsmOperand) : SelectAlike (env.relJump ops) (env'.relJump ops) := by
  unfold AsmEnv.relJump
  split
  case h_1 =>
    split
    · exact selectAlike_map fun _ _ => ⟨rfl, rfl⟩
    · exact selectAlike_error
  case h_2 => exact selectAlike_map fun _ _ => ⟨rfl, rfl⟩
  case h_3 => exact selectAlike_error

theorem selectAlike_callOp (ops : List AsmOperand) : SelectAlike (env.callOp ops) (env'.callOp ops) := by
  unfold AsmEnv.callOp
  split
  case h_1 | h_2 => exact selectAlike_map fun _ _ => ⟨rfl, rfl⟩
  case h_3 => exact selectAlike_error

theorem selectAlike_input (ops : List AsmOperand) : SelectAlike (env.input ops) (env'.input ops) := by
  unfold AsmEnv.input
  split
  case h_1 => exact selectAlike_map fun _ _ => ⟨rfl, rfl⟩
  case h_2 => exact selectAlike_ok ⟨rfl, rfl⟩
  case h_3 => exact selectAlike_error

theorem selectAlike_output (ops : List AsmOperand) : SelectAlike (env.output ops) (env'.output ops) := by
  unfold AsmEnv.output
  split
  case h_1 => exact selectAlike_map fun _ _ => ⟨rfl, rfl⟩
  case h_2 => exact selectAlike_ok ⟨rfl, rfl⟩
  case h_3 => exact selectAlike_error

/-- The three interrupt modes, by the value of the operand. -/
theorem sameShape_intMode (v v' : Int) :
    SameShape (if v = 0 then .im0 else if v = 1 then .im1 else .im2)
      (if v' = 0 then .im0 else if v' = 1 then .im1 else .im2) := by
  have himm (w : Int) : (if w = 0 then Instr.im0 else if w = 1 then .im1 else .im2) ∈ [Instr.im0, .im1, .im2] := by
    split
    · decide
    · split <;> decide
  have hall : ∀ i ∈ [Instr.im0, .im1, .im2], ∀ j ∈ [Instr.im0, .im1, .im2], SameShape i j := by
    unfold SameShape
    decide
  exact hall _ (himm v) _ (himm v')

theorem selectAlike_intMode (ops : List AsmOperand) : SelectAlike (env.intMode ops) (env'.intMode ops) := by
  unfold AsmEnv.intMode
  split
  case h_1 => exact selectAlike_bind fun v v' => selectAlike_ok (sameShape_intMode v v')
  case h_2 => exact selectAlike_error

/-! #### All mnemonics -/

theorem sameShape_plainInstr {mnemonic : String} {i : Instr} (h : plainInstr mnemonic = some i) : SameShape i i := by
  unfold plainInstr at h
  split at h <;> cases h <;> exact ⟨rfl, rfl⟩

theorem selectAlike_selectWith (mnemonic : String) (ops : List AsmOperand) :
    SelectAlike (env.selectWith mnemonic ops) (env'.selectWith mnemonic ops) := by
  unfold AsmEnv.selectWith
  split
  case h_1 => exact selectAlike_arithmetic env env' mnemonic _ ops
  case h_2 hy => exact selectAlike_rotShift env env' (rotCode_ne hy) ops
  case h_3 =>
    split
    case h_1 => exact selectAlike_ld env env' _ _
    case h_2 | h_3 => exact selectAlike_stackOp (fun _ => ⟨rfl, rfl⟩) (fun _ => ⟨rfl, rfl⟩) _
    case h_4 => exact selectAlike_exchange _
    case h_5 | h_6 =>
      exact selectAlike_incDec env env' (fun _ => ⟨rfl, rfl⟩) ⟨rfl, rfl⟩ (fun _ _ _ => ⟨rfl, rfl⟩) (fun _ => ⟨rfl, rfl⟩)
        (fun _ => ⟨rfl, rfl⟩) _
    case h_7 | h_8 | h_9 =>
      exact selectAlike_bitOp env env' (fun _ _ _ => ⟨rfl, rfl⟩) (fun _ _ => ⟨rfl, rfl⟩) (fun _ _ _ _ _ => ⟨rfl, rfl⟩) _
    case h_10 => exact selectAlike_jump env env' _
    case h_11 => exact selectAlike_relJump env env' _
    case h_13 => exact selectAlike_callOp env env' _
    case h_12 | h_15 => exact selectAlike_map fun _ _ => ⟨rfl, rfl⟩
    case h_14 => exact selectAlike_ok ⟨rfl, rfl⟩
    case h_16 => exact selectAlike_input env env' _
    case h_17 => exact selectAlike_output env env' _
    case h_18 => exact selectAlike_intMode env env' _
    case h_19 => exact selectAlike_error

theorem selectAlike_select (mnemonic : String) (ops : List AsmOperand) :
    SelectAlike (env.select mnemonic ops) (env'.select mnemonic ops) := by
  unfold AsmEnv.select
  split
  case h_1 h => exact selectAlike_ok (sameShape_plainInstr h)
  case h_2 => exact selectAlike_selectWith env env' mnemonic _

end

/-- What the assembler never emits includes every term that is no whole instruction. -/
theorem wellFormed_of_emitted {i : Instr} (h : neverEmitted i = false) : i.WellFormed := by
  cases i with
  | prefixCB | prefixDD | prefixED | prefixFD | pOp | ldRRHalf | unknownIndexCb | unknownEd => cases h
  | _ => rfl

/-- Settles O57: by the cases of the selection; what is emitted is well formed, and so it decodes back. -/
theorem assemblerSelectsDecodable : Obligations.AssemblerSelectsDecodable := by
  intro env mnemonic ops i h
  obtain ⟨hemitted, -⟩ := selectAlike_select env env mnemonic ops i i h h
  exact ⟨decodesTo_encode rfl (wellFormed_of_emitted hemitted), hemitted⟩

/-- Settles O58: the same cases are taken in both environments, and no value decides a length. -/
theorem assemblerLengthIsFixed : Obligations.AssemblerLengthIsFixed := by
  intro env env' mnemonic ops i j hi hj
  obtain ⟨-, hlen⟩ := selectAlike_select env env' mnemonic ops i j hi hj
  exact hlen

/-! ### Relative jumps (R389, R414) -/

/-- In strict mode an operand's offset is refused exactly outside a signed byte. -/
theorem offset_of_value {env : AsmEnv} {e : AsmExpr} {target : Int} (hstrict : env.strict = true)
    (hvalue : env.value e = .ok target) :
    env.offset e =
      if target - ((env.addr : Int) + 2) < -128 ∨ 127 < target - ((env.addr : Int) + 2) then
        .error (.outOfRangeRelative (target - ((env.addr : Int) + 2)))
      else .ok (BitVec.ofInt 8 (target - ((env.addr : Int) + 2))) := by
  simp only [AsmEnv.offset, hvalue, hstrict, true_and]
  rfl

theorem toInt_ofInt_byte {k : Int} (h : -128 ≤ k) (h' : k ≤ 127) : (BitVec.ofInt 8 k).toInt = k := by
  rw [BitVec.toInt_ofInt]
  exact Int.bmod_eq_of_le (by omega) (by omega)

/-- A statement whose selection is its operand's offset. -/
theorem selectsOffset_of_select {env : AsmEnv} {mnemonic : String} {ops : List AsmOperand} {made : Byte → Instr}
    {e : AsmExpr} {target : Int} (hstrict : env.strict = true) (hvalue : env.value e = .ok target)
    (hselect : env.select mnemonic ops = (env.offset e).map made) : SelectsOffset env mnemonic ops made target := by
  unfold SelectsOffset
  intro k
  have hoffset : env.offset e = if k < -128 ∨ 127 < k then .error (.outOfRangeRelative k) else .ok (BitVec.ofInt 8 k) :=
    offset_of_value hstrict hvalue
  rw [hselect, hoffset]
  refine ⟨fun i hi => ?_, fun h => ?_, fun h => ?_⟩
  · by_cases hk : k < -128 ∨ 127 < k
    · rw [if_pos hk] at hi
      cases hi
    · rw [if_neg hk] at hi
      cases hi
      refine ⟨_, rfl, ?_⟩
      rw [toInt_ofInt_byte (by omega) (by omega)]
      omega
  · rw [if_neg (by omega)]
    exact ⟨_, rfl⟩
  · rw [if_pos h]
    rfl

/-- The target of an operand is its offset. -/
theorem relTarget_of_relTargetOf {env : AsmEnv} {o : AsmOperand} {e : AsmExpr} (h : relTargetOf o = some e) :
    env.relTarget o = env.offset e := by
  simp only [AsmEnv.relTarget, h]

theorem select_jr {env : AsmEnv} {o : AsmOperand} {e : AsmExpr} (h : relTargetOf o = some e) :
    env.select "JR" [o] = (env.offset e).map .jr := by
  rw [← relTarget_of_relTargetOf h]
  cases o <;> rfl

theorem select_djnz {env : AsmEnv} {o : AsmOperand} {e : AsmExpr} (h : relTargetOf o = some e) :
    env.select "DJNZ" [o] = (env.offset e).map .djnz := by
  rw [← relTarget_of_relTargetOf h]
  rfl

theorem select_jrCc {env : AsmEnv} (cj : CondJr) (e : AsmExpr) :
    env.select "JR" [.cond (jrCond cj), .immediate e] = (env.offset e).map (.jrCc cj) := by
  cases cj <;> rfl

/-- Settles O59: the three mnemonics select by the offset of the target. -/
theorem assembledRelativeJump : Obligations.AssembledRelativeJump := by
  intro env o e target hstrict ho hvalue
  exact ⟨selectsOffset_of_select hstrict hvalue (select_jr ho),
    fun cj => selectsOffset_of_select hstrict hvalue (select_jrCc cj e),
    selectsOffset_of_select hstrict hvalue (select_djnz ho)⟩

end Sys2Proof.Machine

/-! ## The assembler's image (49_assembler.md R388, R400) -/

namespace Sys2Proof.Machine

theorem length_bufferSlice (buffer : Memory) (a n : Nat) : (bufferSlice buffer a n).length = n := by
  induction n generalizing a with
  | zero => rfl
  | succ n ih => exact congrArg (· + 1) (ih _)

theorem getElem?_bufferSlice (buffer : Memory) {a n k : Nat} (hk : k < n) :
    (bufferSlice buffer a n)[k]? = some (Memory.read buffer (a + k)) := by
  induction n generalizing a k with
  | zero => cases hk
  | succ n ih =>
    cases k with
    | zero => rfl
    | succ k =>
      rw [bufferSlice, List.getElem?_cons_succ, ih (Nat.lt_of_succ_lt_succ hk), Nat.add_right_comm, Nat.add_assoc]

/-- Bytes outside the written range are kept. -/
theorem read_bufferBytes_outside (buffer : Memory) {start a : Nat} (bytes : List Byte)
    (h : a < start ∨ start + bytes.length ≤ a) : Memory.read (bufferBytes buffer start bytes) a = Memory.read buffer a := by
  induction bytes generalizing buffer start with
  | nil => rfl
  | cons b rest ih =>
    rw [List.length_cons] at h
    rw [bufferBytes, ih _ (by omega), Memory.read_write, if_neg (by omega)]

theorem read_bufferBytes (buffer : Memory) (start : Nat) (bytes : List Byte) (k : Nat) (hk : k < bytes.length) :
    Memory.read (bufferBytes buffer start bytes) (start + k) = bytes[k] := by
  induction bytes generalizing buffer start k with
  | nil => cases hk
  | cons b rest ih =>
    cases k with
    | zero =>
      rw [bufferBytes, read_bufferBytes_outside _ _ (by omega), Memory.read_write, if_pos (Nat.add_zero start)]
      rfl
    | succ k =>
      have h := ih (Memory.write buffer start b) (start + 1) k (Nat.lt_of_succ_lt_succ hk)
      rwa [Nat.add_assoc, Nat.add_comm 1 k] at h

theorem bufferOf_append (buffer : Memory) (es : List AsmEmission) (e : AsmEmission) :
    bufferOf buffer (es ++ [e]) = bufferBytes (bufferOf buffer es) e.addr e.bytes := by
  induction es generalizing buffer with
  | nil => rfl
  | cons f es ih => exact ih _

/-- What no emission covers is as it was. -/
theorem read_bufferOf_outside (buffer : Memory) {a : Nat} (es : List AsmEmission)
    (h : ∀ f ∈ es, a < f.addr ∨ f.addr + f.bytes.length ≤ a) : Memory.read (bufferOf buffer es) a = Memory.read buffer a := by
  induction es generalizing buffer with
  | nil => rfl
  | cons f es ih =>
    rw [List.forall_mem_cons] at h
    rw [bufferOf, ih _ h.2, read_bufferBytes_outside _ _ h.1]

theorem highWater_append (mark : Nat) (es : List AsmEmission) (e : AsmEmission) :
    highWater mark (es ++ [e]) = highWater (highWater mark es) [e] := by
  induction es generalizing mark with
  | nil => rfl
  | cons f es ih => exact ih _

/-- The mark is above every byte of the last emission. -/
theorem lt_highWater_append (es : List AsmEmission) (e : AsmEmission) {k : Nat} (hk : k < e.bytes.length) :
    e.addr + k < highWater 0 (es ++ [e]) := by
  have hne : e.bytes ≠ [] := List.ne_nil_of_length_pos (Nat.zero_lt_of_lt hk)
  rw [highWater_append, highWater, if_neg hne, highWater]
  omega

/-- Settles O60: the image is the buffer up to the mark, and a byte of the buffer is what was written there last. -/
theorem assemblerImage : Obligations.AssemblerImage := by
  intro labels es e
  refine ⟨length_bufferSlice .., fun k hk => ?_, fun a ha h => ?_⟩
  · refine (getElem?_bufferSlice _ (lt_highWater_append es e hk)).trans (congrArg some ?_)
    rw [Nat.zero_add, bufferOf_append]
    exact read_bufferBytes _ e.addr e.bytes k hk
  · refine (getElem?_bufferSlice _ ha).trans (congrArg some ?_)
    rw [Nat.zero_add, read_bufferOf_outside [] es h]
    rfl

end Sys2Proof.Machine
